-- ==== Sys2Proof/Word.lean ====
section
/-! DEFINITION. The word types of leading_zero_counter. U256 is the one operand type (R10); its bit i is the
coefficient of 2^i (R11), which is the numbering of `BitVec.getLsbD`. -/

namespace Sys2Proof

/-- The operand type: an unsigned integer modulo 2^256 (R10). -/
abbrev U256 := BitVec 256

/-- A returned index or count: 8 unsigned bits (R14, R46, R130). -/
abbrev Index := BitVec 8

/-- The operation select `op` of a request (R45, R47). -/
abbrev OpSel := BitVec 2

/-- A request word, format REQ: op in bits 257:256, x in bits 255:0 (R45). -/
abbrev ReqWord := BitVec 258

/-- A response word, format RSP: err in bit 8, r in bits 7:0 (R46). -/
abbrev RspWord := BitVec 9

/-- One limb of the limb view of an operand (R12); also the native small unsigned integer of R113. -/
abbrev Limb := BitVec 64

end Sys2Proof
end

