-- ==== Sys2Proof/Syntax.lean ====
section
/-! DEFINITION. The command set: one constructor per row of spec/opcode_table.json (R47). Each takes the operand
field of the request as it stands (R48: no immediates, no extension, no scaling). -/

namespace Sys2Proof

/-- A command of the block (R47, R53). -/
inductive Instr where
  /-- Index of the most significant set bit (R66). -/
  | msb (x : U256)
  /-- Index of the least significant set bit (R86). -/
  | lsb (x : U256)
  /-- Number of leading zero bits, `255 - MSB(x)` (R75). -/
  | clz (x : U256)
  /-- Number of trailing zero bits, equal to `LSB(x)` (R95). -/
  | ctz (x : U256)
  deriving DecidableEq, Repr

/-- The operand a command carries. -/
def Instr.operand : Instr → U256
  | .msb x => x
  | .lsb x => x
  | .clz x => x
  | .ctz x => x

end Sys2Proof
end

