-- ==== Sys2Proof/WellFormed.lean ====
section
/-! DEFINITION. Well-formedness. The spec has no illegal command: "every request word is a legal command; the decoder
never rejects a word" (R50). What can be ill formed is a number offered as a request word (R45: 258 bits). The
caller's duty to send a nonzero operand (R171) is a precondition, not a matter of form. -/

namespace Sys2Proof

/-- Every command is well formed: every operand is a U256 and no operation code is reserved (R10, R47, R50). -/
def Instr.wellFormed : Instr → Bool
  | .msb _ => true
  | .lsb _ => true
  | .clz _ => true
  | .ctz _ => true

/-- A number is a request word when it has no bit above bit 257 (R45, R52: a request is always 258 bits): what stands
above the 256 bits of the operand fits the two bits of `op`. -/
def requestNumberWf (n : Nat) : Bool :=
  decide (n / 2 ^ 256 < 4)

/-- The precondition the caller owes: a nonzero operand (R155, R171). A command that misses it is still legal. -/
def Instr.precondition (i : Instr) : Bool :=
  i.operand != 0

end Sys2Proof
end

