-- ==== Sys2Proof/Decode.lean ====
section
/-! DEFINITION. Request words: reading a number as a word, decoding (R55) and encoding (R45, R55). Decoding a 258-bit
word is total. A number that is no 258-bit word is rejected by name; the spec has no byte view of a request (R31), so
words are read from numbers and not from bytes (log 12). -/

namespace Sys2Proof

/-- Why a number is no request word. -/
inductive DecodeReject where
  /-- The number has a bit set above bit 257, so it is no word of the one format REQ (R45, R52). -/
  | widerThanRequest
  deriving DecidableEq, Repr

/-- The 258-bit request word a number stands for, `{op[1:0], x[255:0]}` (R45), or the reason there is none. -/
def requestWord (n : Nat) : Except DecodeReject ReqWord :=
  if requestNumberWf n then .ok (BitVec.ofNat 2 (n / 2 ^ 256) ++ BitVec.ofNat 256 n)
  else .error .widerThanRequest

/-- The `op` field, bits 257:256 (R45). -/
def opField (w : ReqWord) : OpSel :=
  w.extractLsb' 256 2

/-- The operand field `x`, bits 255:0; bit i of the word is bit i of the operand (R45, R32). -/
def operandField (w : ReqWord) : U256 :=
  w.extractLsb' 0 256

/-- Decode a request word (R55). `op[1]` selects the view and `op[0]` the engine (R47). -/
def decode (w : ReqWord) : Instr :=
  match (opField w).getLsbD 1, (opField w).getLsbD 0 with
  | false, false => .msb (operandField w)
  | false, true => .lsb (operandField w)
  | true, false => .clz (operandField w)
  | true, true => .ctz (operandField w)

/-- The operation code of a command (R47). -/
def opCode : Instr → OpSel
  | .msb _ => 0b00#2
  | .lsb _ => 0b01#2
  | .clz _ => 0b10#2
  | .ctz _ => 0b11#2

/-- Encode a command: `req = {op[1:0], x[255:0]}` (R45, R55). -/
def encode (i : Instr) : ReqWord :=
  opCode i ++ i.operand

/-- The host's question: what the decoder reads from an instruction whose `nbits` bits are `w`, numbered as
spec/opcode_table.json numbers them (bit 0 least significant). Bits above `nbits` are 0, so `w` is the whole word
whatever `nbits` is. -/
def decodeTableWord (_nbits w : Nat) : Option Instr :=
  match requestWord w with
  | .ok word => some (decode word)
  | .error _ => none

end Sys2Proof
end

