-- ==== Sys2Proof/Config.lean ====
section
/-! DEFINITION. What is fixed for the machine and is no state: the names of the eight stage widths (R51), and the
free values, constants without a body that stand where the spec gives "any value" (U1 and U8 of
spec/93_implementation_defined.md). Each is ONE function for all instances and all runs, applied to a counter, so equal
counters draw equal values (DESIGN CHOICE, unsafe, log 26). The constants `T_w`, `M_w`, `ZERO`, `ONE`, `MAX` are in Machine/Constants.lean. -/

namespace Sys2Proof

/-- The eight widths of the stage table: seven halving widths and the 1 of the final test (R6, R51). -/
inductive Width where
  | w128 | w64 | w32 | w16 | w8 | w4 | w2 | w1
  deriving DecidableEq, Repr

/-- FREE VALUE: what the `r` field of the response word carries when `err = 1`. The spec treats it as "any value"
(R49, U1), so it has no body; `n` is the draw counter of State (log 2). -/
opaque Config.errIndex (n : Nat) : Index

/-- FREE VALUE: what a working register `X` holds once an operation is over or reset is asserted: "any value, and
unreadable" (U8, R24). `n` is the draw counter of State (log 5). -/
opaque Config.idleX (n : Nat) : U256

/-- FREE VALUE: what a working register `R` holds once an operation is over or reset is asserted: "any value, and
unreadable" (U8, R24). `n` is the draw counter of State (log 5). -/
opaque Config.idleR (n : Nat) : Index

end Sys2Proof
end

