-- ==== Sys2Proof/Machine/Constants.lean ====
section
/-! DEFINITION. The hardwired constants (R18): the general constants (R110), the thresholds `T_w` (R111), the masks
`M_w` (R112), the stage widths and their order (R51). They are configuration, not state. -/

namespace Sys2Proof.Machine

/-- `ZERO` (R110). -/
def zeroU : U256 := 0x0#256

/-- `ONE` (R110). -/
def oneU : U256 := 0x1#256

/-- `MAX`, all 256 bits set (R110). -/
def maxU : U256 := 0xFFFFFFFFFFFFFFFFFFFFFFFFFFFFFFFFFFFFFFFFFFFFFFFFFFFFFFFFFFFFFFFF#256

/-- The number of bit positions a width stands for (R51). -/
def widthBits : Width → Nat
  | .w128 => 128
  | .w64 => 64
  | .w32 => 32
  | .w16 => 16
  | .w8 => 8
  | .w4 => 4
  | .w2 => 2
  | .w1 => 1

/-- `T_w`, the threshold constants, as the table of R111 prints them. -/
def threshold : Width → U256
  | .w128 => 0x100000000000000000000000000000000#256
  | .w64 => 0x10000000000000000#256
  | .w32 => 0x100000000#256
  | .w16 => 0x10000#256
  | .w8 => 0x100#256
  | .w4 => 0x10#256
  | .w2 => 0x4#256
  | .w1 => 0x2#256

/-- `M_w`, the mask constants, as the table of R112 prints them. -/
def lowMask : Width → U256
  | .w128 => 0xFFFFFFFFFFFFFFFFFFFFFFFFFFFFFFFF#256
  | .w64 => 0xFFFFFFFFFFFFFFFF#256
  | .w32 => 0xFFFFFFFF#256
  | .w16 => 0xFFFF#256
  | .w8 => 0xFF#256
  | .w4 => 0xF#256
  | .w2 => 0x3#256
  | .w1 => 0x1#256

/-- The seven halving widths in the order of use, largest first (R51, R192). -/
def halvingWidths : List Width :=
  [.w128, .w64, .w32, .w16, .w8, .w4, .w2]

/-- The width of each stage of the stage table, stages 0 to 7 (R51). -/
def stageWidth (k : Fin 8) : Width :=
  match k with
  | 0 => .w128
  | 1 => .w64
  | 2 => .w32
  | 3 => .w16
  | 4 => .w8
  | 5 => .w4
  | 6 => .w2
  | 7 => .w1

/-- The eight stages in order (R16, R51). -/
def allStages : List (Fin 8) :=
  [0, 1, 2, 3, 4, 5, 6, 7]

end Sys2Proof.Machine
end

