-- ==== Sys2Proof/Machine/State.lean ====
section
/-! DEFINITION. The state of one block instance with its interface and its environment's run record. The block keeps
nothing from one operation to the next (R15): the working registers hold free values between operations (U8). There is
no memory, no program counter, no flag, no control register and no trap register (R16, R17, R21, R22, R30, R158). -/

namespace Sys2Proof.Machine

/-- The two engines (R2): the MSB datapath and the LSB datapath. -/
inductive Engine where
  | msbLzc
  | lsbTz
  deriving DecidableEq, Repr

/-- The four operations an engine can be running (R47), without the operand: the operand is sampled into `X` (R20). -/
inductive Command where
  | msb | lsb | clz | ctz
  deriving DecidableEq, Repr

/-- The two working registers of an engine: `X`, the working copy (R13), and `R`, the accumulator (R14). -/
structure WorkRegs where
  x : U256
  r : Index
  deriving DecidableEq, Repr

/-- An operation in progress: its command and the number of the stage that runs next (R16, R51). -/
structure Running where
  cmd : Command
  stage : Fin 8
  deriving DecidableEq, Repr

/-- A response, in the two-case form of R49: a result, or the domain error, which carries no index. -/
inductive Response where
  /-- `err = 0`: the operation's result (R46, R49). -/
  | ok (r : Index)
  /-- `err = 1`: the operand was zero; there is no index, not even zero (R49, R159). -/
  | domainError
  deriving DecidableEq, Repr

/-- Faults. The block itself raises none: its one exception, DomainError, is a response after which it serves the next
request (R158, R161, R165). -/
inductive Fault where
  /-- Raised by the caller's read of an index (`readIndex`) when the response has `err = 1`: "a consumer that reads
  one has faulted" (U1, R49, R171). SAFE: the model stops where a caller breaks its duty. -/
  | indexReadUnderError
  deriving DecidableEq, Repr

/-- Refusals. No step of the block raises one: they belong to the caller's side and to the primitives outside the
range the spec defines. -/
inductive Refusal where
  /-- Raised by exec for a command without a meaning yet; no arm does. SAFE. -/
  | notModelled (mnemonic : String)
  /-- Raised by `shrNat` for a shift amount of 256 or more: "this spec gives no result" (R109, U3). SAFE: the
  engines never shift so far. -/
  | shiftAmountUndefined
  /-- Raised by the literal readers for a malformed or over-range literal: "it denotes no U256" (R114, R115, U4). SAFE:
  test-bench side only. -/
  | malformedLiteral
  /-- Raised by the command-line reader for a line that is no command (R53). SAFE: test-bench side only. -/
  | malformedCommand
  /-- Raised by `callerSend` for a second request before the response: the caller may not send it (R171, U10). SAFE. -/
  | requestOverlap
  /-- Raised by a system event that names an instance the system does not have (R169). SAFE. -/
  | noSuchInstance
  deriving DecidableEq, Repr

/-- One block instance, its interface words, and the environment's record of the run. -/
structure State where
  /-- The reset input: true while reset is asserted (R180). Driven by the environment. -/
  resetIn : Bool
  /-- The request word presented and not yet taken by the block (R19, R45). -/
  request : Option ReqWord
  /-- The operation in progress; none between operations (R15, R16, R180). -/
  running : Option Running
  /-- Working registers of the MSB engine (R13, R14). -/
  msb : WorkRegs
  /-- Working registers of the LSB engine (R13, R14). -/
  lsb : WorkRegs
  /-- The response given for the last operation; none after reset and from the start of an operation (R24). -/
  response : Option Response
  /-- ENVIRONMENT: the responses of the run so far, oldest first (R183). -/
  record : List Response
  /-- ENVIRONMENT: the fault mark of the run on this instance (R160, R172, log 7, log 24). The block does not hold it. -/
  faultMark : Bool
  /-- THE MODEL'S OWN, not the spec's: the counter the free values are drawn with (log 6); each instance has its own,
  and instances with equal counters draw equal values (log 26). -/
  draws : Nat
  deriving DecidableEq, Repr

/-- The machine right after reset: reset released, idle, nothing presented, no response pending (R180, R24). The
working registers are "unspecified" after reset in the spec: DESIGN CHOICE 0, unsafe, log 4; no result rests on it. Every
instance starts with the counter of free values at 0 (DESIGN CHOICE, log 6, log 26). -/
def State.reset : State where
  resetIn := false
  request := none
  running := none
  msb := ⟨0, 0⟩
  lsb := ⟨0, 0⟩
  response := none
  record := []
  faultMark := false
  draws := 0

end Sys2Proof.Machine
end

