-- ==== Sys2Proof/Machine/Operands.lean ====
section
/-! DEFINITION. The operand forms and the U256 supporting surface: comparison, AND, right shift, construction from a
small unsigned integer (R105 to R109, R113), and the limb view of an operand with the limb forms of the primitives
(R12, R48, R105, R108, R109). The surface holds nothing else (R116). -/

namespace Sys2Proof.Machine

/-- `GE(a, b)`, unsigned (R105, R187). -/
def geU (a b : U256) : Bool :=
  b.ule a

/-- `GT(a, b)`, unsigned (R106). -/
def gtU (a b : U256) : Bool :=
  b.ult a

/-- `EQ(a, b)` (R107). -/
def eqU (a b : U256) : Bool :=
  a == b

/-- `AND(a, b)`, bit by bit (R108). -/
def andU (a b : U256) : U256 :=
  a &&& b

/-- `SHR(a, s)` for the amounts the spec defines, 0 to 255: logical, zero fill (R109, R188). -/
def shrU (a : U256) (s : Fin 256) : U256 :=
  a >>> s.val

/-- `SHR(a, s)` for any amount: for 256 or more "this spec gives no result" (R109, U3). -/
def shrNat (a : U256) (s : Nat) : Except Refusal U256 :=
  if h : s < 256 then .ok (shrU a ⟨s, h⟩) else .error .shiftAmountUndefined

/-- The shift amount of a stage width (R51, R109). -/
def widthShift : Width → Fin 256
  | .w128 => 128
  | .w64 => 64
  | .w32 => 32
  | .w16 => 16
  | .w8 => 8
  | .w4 => 4
  | .w2 => 2
  | .w1 => 1

/-- The amount a stage adds to or subtracts from the accumulator (R51). -/
def widthIndex (w : Width) : Index :=
  BitVec.ofNat 8 (widthBits w)

/-- Construction from a native small unsigned integer: zero extension (R113). -/
def fromSmall (n : Limb) : U256 :=
  n.zeroExtend 256

/-- A U256 held as four 64-bit limbs, limb 0 least significant (R12). -/
structure Limbs where
  l0 : Limb
  l1 : Limb
  l2 : Limb
  l3 : Limb
  deriving DecidableEq, Repr

/-- Limb j is bits 64*j + 63 down to 64*j (R12). -/
def toLimbs (x : U256) : Limbs where
  l0 := x.extractLsb' 0 64
  l1 := x.extractLsb' 64 64
  l2 := x.extractLsb' 128 64
  l3 := x.extractLsb' 192 64

/-- Operand assembly from limbs: `x = {limb3, limb2, limb1, limb0}` (R48). -/
def ofLimbs (l : Limbs) : U256 :=
  l.l3 ++ (l.l2 ++ (l.l1 ++ l.l0))

/-- GE on limbs: limb 3 first, then 2, 1, 0; the first unequal pair decides, all equal gives true (R105). -/
def geLimbs (a b : Limbs) : Bool :=
  if a.l3 ≠ b.l3 then b.l3.ult a.l3
  else if a.l2 ≠ b.l2 then b.l2.ult a.l2
  else if a.l1 ≠ b.l1 then b.l1.ult a.l1
  else if a.l0 ≠ b.l0 then b.l0.ult a.l0
  else true

/-- AND on limbs: limb by limb (R108). -/
def andLimbs (a b : Limbs) : Limbs where
  l0 := a.l0 &&& b.l0
  l1 := a.l1 &&& b.l1
  l2 := a.l2 &&& b.l2
  l3 := a.l3 &&& b.l3

/-- SHR by 128 on limbs (R109). -/
def shrLimbs128 (a : Limbs) : Limbs where
  l0 := a.l2
  l1 := a.l3
  l2 := 0
  l3 := 0

/-- SHR by 64 on limbs (R109). -/
def shrLimbs64 (a : Limbs) : Limbs where
  l0 := a.l1
  l1 := a.l2
  l2 := a.l3
  l3 := 0

/-- One limb of a shift by less than 64: `(limb >> s) + ((next mod 2^s) * 2^(64 - s))` (R109). -/
def shrLimbPair (s : Nat) (limb next : Limb) : Limb :=
  BitVec.ofNat 64 (limb.toNat / 2 ^ s + next.toNat % 2 ^ s * 2 ^ (64 - s))

/-- SHR by an amount below 64 on limbs, old limb 4 taken as zero (R109). -/
def shrLimbsBelow64 (s : Fin 64) (a : Limbs) : Limbs where
  l0 := shrLimbPair s a.l0 a.l1
  l1 := shrLimbPair s a.l1 a.l2
  l2 := shrLimbPair s a.l2 a.l3
  l3 := shrLimbPair s a.l3 0

end Sys2Proof.Machine
end

