-- ==== Sys2Proof/Machine/Flags.lean ====
section
/-! DEFINITION. Flags. The block has none: no carry, overflow, sign, zero or parity flag exists and no operation writes
one (R17). The one status condition is the domain error, "input is zero", and it is part of the response. -/

namespace Sys2Proof.Machine

/-- The domain-error condition on an operand, the entry check `EQ(x, ZERO)` (R17, R156). -/
def isDomainError (x : U256) : Bool :=
  eqU x zeroU

/-- The `err` bit of a response (R17, R46). -/
def errBit : Response → Bool
  | .ok _ => false
  | .domainError => true

end Sys2Proof.Machine
end

