-- ==== Sys2Proof/Machine/Ops.lean ====
section
/-! DEFINITION. The named operations on State that commands, stages and reset share: the engines' registers, giving a
result, raising DomainError (the ONE exception, R155, R158), taking the request, holding reset. There is no
return-from-exception operation: nothing was entered, and the next request is served as after a result (R165). -/

namespace Sys2Proof.Machine

/-- The working registers of an engine. -/
def engineRegs (e : Engine) (s : State) : WorkRegs :=
  match e with
  | .msbLzc => s.msb
  | .lsbTz => s.lsb

/-- Write the working registers of an engine. The other engine's are its own (R13, R14: one per engine). -/
def setEngineRegs (e : Engine) (w : WorkRegs) (s : State) : State :=
  match e with
  | .msbLzc => { s with msb := w }
  | .lsbTz => { s with lsb := w }

/-- What the working registers hold when no operation uses them: free values (U8, log 5), drawn from one function for all
instances, so that equal counters draw equal values (DESIGN CHOICE, unsafe, log 26). -/
def idleRegs (n : Nat) : WorkRegs where
  x := Config.idleX n
  r := Config.idleR n

/-- Give a response and be ready for the next request: the word goes to the caller, whose record of the run takes it
(R19, R168, R183). -/
def giveResponse (rsp : Response) (s : State) : State :=
  { s with
    response := some rsp
    record := s.record ++ [rsp]
    running := none
    draws := s.draws + 1 }

/-- End an operation with a result: `rsp <- {err = 0, r}` (R66, R86). The engine's working registers exist only during
the operation (R13, R14), so what they hold from here on is free. -/
def giveResult (e : Engine) (r : Index) (s : State) : State :=
  giveResponse (.ok r) (setEngineRegs e (idleRegs s.draws) s)

/-- DomainError: abandon the operation, give `err = 1` with no index, be ready for the next request; nothing else is
saved or changed in the block (R158, R159). The environment marks the run faulted (R160, R172). -/
def raiseDomainError (s : State) : State :=
  giveResponse .domainError { s with faultMark := true }

/-- Finish a command on operand `x` whose stages give `r`: the zero check comes first (R156, R163). -/
def answer (e : Engine) (x : U256) (r : Index) (s : State) : State :=
  if isDomainError x then raiseDomainError s else giveResult e r s

/-- The block takes the request presented; from the start of an operation there is no response (R19, R24). -/
def takeRequest (s : State) : State :=
  { s with request := none, response := none }

/-- What reset does, when it is asserted, at every step while it is and when it is released: no request is accepted, no
response is given or pending, an operation in progress is dropped, the working registers are unspecified (R180, R24). A
request without a response never gets one, and the caller reissues it (R171, U9): one that was presented and not yet taken
is dropped too (DEDUCED, log 9; one presented while reset is asserted: DESIGN CHOICE, unsafe, log 25). -/
def holdReset (s : State) : State :=
  { s with
    request := none
    running := none
    response := none
    msb := idleRegs s.draws
    lsb := idleRegs (s.draws + 1)
    draws := s.draws + 2 }

/-- A response as its word `{err, r[7:0]}` (R46). Under `err = 1` the `r` field is `free`: any value (R49, U1). -/
def responseWordOf (free : Index) : Response → RspWord
  | .ok r => 0#1 ++ r
  | .domainError => 1#1 ++ free

/-- The response word at the interface, if a response has been given. The `r` field under `err = 1` is drawn from one
function for all instances, so that equal counters draw equal values (DESIGN CHOICE, unsafe, log 26). -/
def responseWord (s : State) : Option RspWord :=
  s.response.map (responseWordOf (Config.errIndex s.draws))

/-- What a caller reads from a response word: `r` only when `err = 0` (R46, R49, R171). -/
def readResponseWord (w : RspWord) : Response :=
  if w.getLsbD 8 then .domainError else .ok (w.extractLsb' 0 8)

end Sys2Proof.Machine
end

