-- ==== Sys2Proof/Machine/Caller.lean ====
section
/-! DEFINITION. The caller's side of the interface: presenting a request, taking a response, reading an index, driving
reset (R171, R180). These are actions of the environment, not commands of the block. -/

namespace Sys2Proof.Machine

/-- Put a request word on the interface. It makes no check: a word that stands there untaken is replaced and never
gets a response. U10 gives an overlap no move, so the replacement is the model's (DESIGN CHOICE, unsafe, log 22). -/
def presentRequest (w : ReqWord) (s : State) : State :=
  { s with request := some w }

/-- Present the request word a number stands for; nothing is presented when the number is no request word (log 12). -/
def presentNumber (n : Nat) (s : State) : State :=
  match requestWord n with
  | .ok w => presentRequest w s
  | .error _ => { s with request := none }

/-- The caller sends a request: it may not send a second one to the instance before the response (R171), which has "no
move in the model" (U10). Reset drops every request without a response, so the caller can reissue it (R171, log 9). -/
def callerSend (w : ReqWord) (s : State) : Except Refusal State :=
  if s.request.isSome || s.running.isSome then .error .requestOverlap else .ok (presentRequest w s)

/-- The caller takes the response, if one has been given (R171). -/
def callerTake (s : State) : Option (Response × State) :=
  s.response.map fun rsp => (rsp, { s with response := none })

/-- The caller reads the index of a response: it may not when `err = 1` (R49, R171, U1). -/
def readIndex : Response → Except Fault Index
  | .ok r => .ok r
  | .domainError => .error .indexReadUnderError

/-- The environment asserts reset: an operation in progress, and a request not yet taken, is dropped at that moment
(R180, R171). It acts at once, with no
least time it must be held (DESIGN CHOICE, log 23). -/
def assertReset (s : State) : State :=
  holdReset { s with resetIn := true }

/-- The environment releases reset, and the block is idle with no response pending (R180). Where reset is not asserted
there is nothing to release. -/
def releaseReset (s : State) : State :=
  if s.resetIn then { holdReset s with resetIn := false } else s

end Sys2Proof.Machine
end

