-- ==== Sys2Proof/Machine/LsbEngine.lean ====
section
/-! DEFINITION. lsb_tz_encoder: the LSB engine's stages, and the two commands that use it, LSB and CTZ
(spec/41_lsb.md). -/

namespace Sys2Proof.Machine

/-- Initialisation: `X <- x`, `R <- 255` (R86, R181). -/
def lsbLoad (x : U256) : WorkRegs where
  x := x
  r := 255

/-- The test of an LSB stage: `AND(X, M_w)`, then compared with zero (R51, R87, R94, R186). -/
def lsbTest (w : Width) (e : WorkRegs) : Bool :=
  !eqU (andU e.x (lowMask w)) zeroU

/-- One halving stage: subtract `w`, or shift by `w`; exactly one of the two (R87). -/
def lsbHalve (w : Width) (e : WorkRegs) : WorkRegs :=
  if lsbTest w e then { e with r := e.r - widthIndex w } else { e with x := shrU e.x (widthShift w) }

/-- The final step: if bit 0 of `X` is set, subtract 1; `X` is never written (R88, R191). -/
def lsbFinal (e : WorkRegs) : WorkRegs :=
  if lsbTest .w1 e then { e with r := e.r - 1 } else e

/-- The stages of LSB(x): load, the seven halving stages in order, the final step (R86). -/
def lsbRun (x : U256) : WorkRegs :=
  lsbFinal (halvingWidths.foldl (fun e w => lsbHalve w e) (lsbLoad x))

/-- Stage `k` of the LSB engine by its number (R51). -/
def lsbStage (k : Fin 8) (e : WorkRegs) : WorkRegs :=
  if k = 7 then lsbFinal e else lsbHalve (stageWidth k) e

/-- The working registers of the LSB engine after the first `n` stages on operand `x`. -/
def lsbAfter (x : U256) (n : Nat) : WorkRegs :=
  (allStages.take n).foldl (fun e k => lsbStage k e) (lsbLoad x)

/-- LSB (R86). -/
def execLsb (x : U256) (s : State) : Host.Outcome State Fault Refusal :=
  .next (answer .lsbTz x (lsbRun x).r s)

/-- CTZ: the LSB engine's index as it is (R95). -/
def execCtz (x : U256) (s : State) : Host.Outcome State Fault Refusal :=
  .next (answer .lsbTz x (lsbRun x).r s)

end Sys2Proof.Machine
end

