-- ==== Sys2Proof/Machine/MsbEngine.lean ====
section
/-! DEFINITION. msb_lzc_engine: the MSB engine's stages, and the two commands that use it, MSB and CLZ
(spec/40_msb.md). -/

namespace Sys2Proof.Machine

/-- Initialisation: `X <- x`, `R <- 0` (R66, R181). -/
def msbLoad (x : U256) : WorkRegs where
  x := x
  r := 0

/-- The test of an MSB stage: `X >= T_w` (R51, R67, R68). -/
def msbTest (w : Width) (e : WorkRegs) : Bool :=
  geU e.x (threshold w)

/-- One halving stage: both writes or neither (R67). -/
def msbHalve (w : Width) (e : WorkRegs) : WorkRegs :=
  if msbTest w e then { x := shrU e.x (widthShift w), r := e.r + widthIndex w } else e

/-- The final step: if `X >= 2`, add 1; `X` is never written (R68, R191). -/
def msbFinal (e : WorkRegs) : WorkRegs :=
  if msbTest .w1 e then { e with r := e.r + 1 } else e

/-- The stages of MSB(x): load, the seven halving stages in order, the final step (R66). -/
def msbRun (x : U256) : WorkRegs :=
  msbFinal (halvingWidths.foldl (fun e w => msbHalve w e) (msbLoad x))

/-- Stage `k` of the MSB engine by its number (R51). -/
def msbStage (k : Fin 8) (e : WorkRegs) : WorkRegs :=
  if k = 7 then msbFinal e else msbHalve (stageWidth k) e

/-- The working registers of the MSB engine after the first `n` stages on operand `x`. -/
def msbAfter (x : U256) (n : Nat) : WorkRegs :=
  (allStages.take n).foldl (fun e k => msbStage k e) (msbLoad x)

/-- MSB (R66). -/
def execMsb (x : U256) (s : State) : Host.Outcome State Fault Refusal :=
  .next (answer .msbLzc x (msbRun x).r s)

/-- CLZ: the MSB engine's index complemented, `255 - m` (R75). -/
def execClz (x : U256) (s : State) : Host.Outcome State Fault Refusal :=
  .next (answer .msbLzc x (255 - (msbRun x).r) s)

end Sys2Proof.Machine
end

