-- ==== Sys2Proof/Machine/Stages.lean ====
section
/-! DEFINITION. The stage-level unfolding of an operation (R51, D2: "a model may also expose stages"). One tick is one
stage; an operation is one tick that takes the request and checks it, then eight stage ticks (R16, R194). Reset may be
asserted between two ticks and drops the operation (R180). `step` does a whole operation at once. -/

namespace Sys2Proof.Machine

/-- The engine a command uses, `op[0]` (R47). -/
def engineOf : Command → Engine
  | .msb => .msbLzc
  | .lsb => .lsbTz
  | .clz => .msbLzc
  | .ctz => .lsbTz

/-- The view a command gives of its engine's accumulator, `op[1]` (R47, R75, R95). -/
def viewOf (c : Command) (r : Index) : Index :=
  match c with
  | .msb => r
  | .lsb => r
  | .clz => 255 - r
  | .ctz => r

/-- The command a decoded request asks for. -/
def commandOf : Instr → Command
  | .msb _ => .msb
  | .lsb _ => .lsb
  | .clz _ => .clz
  | .ctz _ => .ctz

/-- An engine's registers at the start of an operation (R181). -/
def engineLoad (e : Engine) (x : U256) : WorkRegs :=
  match e with
  | .msbLzc => msbLoad x
  | .lsbTz => lsbLoad x

/-- Stage `k` of an engine (R51). -/
def engineStage (e : Engine) (k : Fin 8) (w : WorkRegs) : WorkRegs :=
  match e with
  | .msbLzc => msbStage k w
  | .lsbTz => lsbStage k w

/-- An engine's registers after the first `n` stages on operand `x`. -/
def engineAfter (e : Engine) (x : U256) (n : Nat) : WorkRegs :=
  match e with
  | .msbLzc => msbAfter x n
  | .lsbTz => lsbAfter x n

/-- Start an operation: the zero check at entry, then the load of the working registers and stage number 0
(R156, R16, R181). -/
def startOperation (c : Command) (x : U256) (s : State) : State :=
  if isDomainError x then raiseDomainError s
  else { setEngineRegs (engineOf c) (engineLoad (engineOf c) x) s with running := some ⟨c, 0⟩ }

/-- Run one stage of the operation in progress; after stage 7 the operation ends with its response (R16, R51). -/
def stageTick (op : Running) (s : State) : State :=
  if op.stage = 7 then
    giveResult (engineOf op.cmd)
      (viewOf op.cmd (engineStage (engineOf op.cmd) op.stage (engineRegs (engineOf op.cmd) s)).r) s
  else
    { setEngineRegs (engineOf op.cmd)
        (engineStage (engineOf op.cmd) op.stage (engineRegs (engineOf op.cmd) s)) s with
      running := some ⟨op.cmd, op.stage + 1⟩ }

/-- One tick of the stage-level machine. -/
def tick (s : State) : State :=
  if s.resetIn then holdReset s
  else
    match s.running with
    | some op => stageTick op s
    | none =>
      match s.request with
      | none => s
      | some w => startOperation (commandOf (decode w)) (decode w).operand (takeRequest s)

/-- `n` ticks. -/
def ticks : Nat → State → State
  | 0, s => s
  | n + 1, s => ticks n (tick s)

/-- The registers an engine ends with when it runs stages `k` to 7 from `w`. -/
def finishStages (e : Engine) (k : Fin 8) (w : WorkRegs) : WorkRegs :=
  (allStages.drop k).foldl (fun v j => engineStage e j v) w

/-- Complete the operation in progress: the stages that are left, then the response (R162, R194). -/
def finishOperation (op : Running) (s : State) : State :=
  giveResult (engineOf op.cmd)
    (viewOf op.cmd (finishStages (engineOf op.cmd) op.stage (engineRegs (engineOf op.cmd) s)).r) s

end Sys2Proof.Machine
end

