-- ==== Sys2Proof/Machine/Step.lean ====
section
/-! DEFINITION. One step of a block instance: take one request, produce one response, as a single indivisible
transition (R168, D2). -/

namespace Sys2Proof.Machine

/-- While reset is asserted nothing is accepted or answered (R180). An operation in progress runs to completion (R162).
Otherwise the request presented is taken, decoded and executed; with none presented the block stays idle (log 10). -/
def step (s : State) : Host.Outcome State Fault Refusal :=
  if s.resetIn then .next (holdReset s)
  else
    match s.running with
    | some op => .next (finishOperation op s)
    | none =>
      match s.request with
      | none => .next s
      | some w => exec (decode w) (takeRequest s)

/-- The host's placement of a request: the caller presents it, reset is released and no operation is in progress, so
that the very next step takes it (log 8). Bits above `nbits` are 0, so `w` is the whole word. -/
def State.withFetchWord (s : State) (_nbits w : Nat) : State :=
  presentNumber w { s with resetIn := false, running := none }

end Sys2Proof.Machine
end

