-- ==== Sys2Proof/Machine/Contract.lean ====
section
/-! DEFINITION. The contracts of the two indices (R65, R85, R135, R136), with the care R189 asks for: 2^256 is no U256.
They say what an index must be; none is part of the block, and the engines form no power of two and subtract none. -/

namespace Sys2Proof.Machine

/-- `2^i` as a U256, for statements only. The surface has no left shift (R116), so no command forms it. It is 2^i for i
up to 255 and wraps to 0 at i = 256, which is why the bound over U256 values needs its guard (R189). -/
def powU (i : Nat) : U256 :=
  BitVec.twoPow 256 i

/-- `2^i - 1` as a U256, for statements only: 0 at i = 0, where no bit is below, and not all ones (R136, R189). -/
def belowU (i : Nat) : U256 :=
  powU i - 1

/-- The contract of MSB, `2^r ≤ x < 2^(r+1)`, over the natural numbers, where 2^256 is a number like any other (R65,
R189). -/
abbrev msbContract (x : U256) (r : Index) : Prop :=
  2 ^ r.toNat ≤ x.toNat ∧ x.toNat < 2 ^ (r.toNat + 1)

/-- Property 1 over U256 values, with the guard "MSB(x) = 255 OR" (R135, R189). -/
abbrev msbBound (x : U256) (m : Index) : Prop :=
  geU x (powU m.toNat) = true ∧ (m = 255 ∨ gtU (powU (m.toNat + 1)) x = true)

/-- The contract of LSB, `(x AND 2^r) ≠ 0` and `x AND (2^r - 1) = 0` (R85, R136). -/
abbrev lsbContract (x : U256) (r : Index) : Prop :=
  andU x (powU r.toNat) ≠ 0 ∧ andU x (belowU r.toNat) = 0

end Sys2Proof.Machine
end

