-- ==== Sys2Proof/Machine/Encoder.lean ====
section
/-! DEFINITION. bit_position_encoder: the eight stage decisions of an engine, and the index as plain wiring of them
(R70, R90, R130 to R133). The engines build the same index as an accumulator; that the two agree is a statement. -/

namespace Sys2Proof.Machine

/-- Decision `d_k` of the MSB engine on operand `x`: whether the test of stage `k` was true (R70). -/
def msbDecision (x : U256) (k : Fin 8) : Bool :=
  msbTest (stageWidth k) (msbAfter x k)

/-- Decision `t_k` of the LSB engine on operand `x`: whether the mask test of stage `k` was true (R90). -/
def lsbDecision (x : U256) (k : Fin 8) : Bool :=
  lsbTest (stageWidth k) (lsbAfter x k)

/-- The concatenation `{d_0, d_1, d_2, d_3, d_4, d_5, d_6, d_7}` of eight decisions (R131). -/
def wireDecisions (d : Fin 8 → Bool) : Index :=
  BitVec.ofBool (d 0) ++ (BitVec.ofBool (d 1) ++ (BitVec.ofBool (d 2) ++ (BitVec.ofBool (d 3) ++
    (BitVec.ofBool (d 4) ++ (BitVec.ofBool (d 5) ++ (BitVec.ofBool (d 6) ++ BitVec.ofBool (d 7)))))))

/-- The MSB encoder: the decisions as they are (R131). -/
def encodeMsb (d : Fin 8 → Bool) : Index :=
  wireDecisions d

/-- The LSB encoder: the decisions complemented (R132). -/
def encodeLsb (t : Fin 8 → Bool) : Index :=
  wireDecisions fun k => !t k

/-- The CLZ view: the MSB encoder's output complemented bit by bit (R133). -/
def encodeClz (d : Fin 8 → Bool) : Index :=
  wireDecisions fun k => !d k

/-- The CTZ view: the LSB encoder's output unchanged (R133). -/
def encodeCtz (t : Fin 8 → Bool) : Index :=
  encodeLsb t

end Sys2Proof.Machine
end

