-- ==== Sys2Proof/Machine/Literals.lean ====
section
/-! DEFINITION. Test-bench notation (R114, R115, R53): decimal and hexadecimal literals and command lines. It is not a
function of the block (R5). Texts are lists of characters. -/

namespace Sys2Proof.Machine

/-- The value of a decimal digit. -/
def decimalDigit (c : Char) : Option Nat :=
  if '0' ≤ c ∧ c ≤ '9' then some (c.toNat - '0'.toNat) else none

/-- The value of a hexadecimal digit, either case (R115). -/
def hexDigit (c : Char) : Option Nat :=
  if '0' ≤ c ∧ c ≤ '9' then some (c.toNat - '0'.toNat)
  else if 'a' ≤ c ∧ c ≤ 'f' then some (c.toNat - 'a'.toNat + 10)
  else if 'A' ≤ c ∧ c ≤ 'F' then some (c.toNat - 'A'.toNat + 10)
  else none

/-- The base-`b` reading of a digit string, most significant digit first, continuing from `acc`; none if a character
is no digit. -/
def readDigits (b : Nat) (digit : Char → Option Nat) : Nat → List Char → Option Nat
  | acc, [] => some acc
  | acc, c :: cs =>
    match digit c with
    | some d => readDigits b digit (acc * b + d) cs
    | none => none

/-- The U256 of a value, accepted exactly when it is at most 2^256 - 1 (R114). -/
def literalValue (v : Option Nat) : Except Refusal U256 :=
  match v with
  | some n => if n < 2 ^ 256 then .ok (BitVec.ofNat 256 n) else .error .malformedLiteral
  | none => .error .malformedLiteral

/-- A decimal literal: one or more digits, nothing else; leading zeros allowed (R114). -/
def decimalLiteral (cs : List Char) : Except Refusal U256 :=
  if cs = [] then .error .malformedLiteral else literalValue (readDigits 10 decimalDigit 0 cs)

/-- The digits of a hexadecimal literal: 1 to 64 of them (R115). -/
def hexLiteral (cs : List Char) : Except Refusal U256 :=
  if cs = [] ∨ 64 < cs.length then .error .malformedLiteral else literalValue (readDigits 16 hexDigit 0 cs)

/-- A U256 literal: `0x` and hexadecimal digits, or decimal digits (R53, R114, R115). -/
def literal (cs : List Char) : Except Refusal U256 :=
  match cs with
  | '0' :: 'x' :: ds => hexLiteral ds
  | ds => decimalLiteral ds

/-- Put a finished word, if it has any character, before the words that follow. -/
def consWord (w : List Char) (ws : List (List Char)) : List (List Char) :=
  if w = [] then ws else w.reverse :: ws

/-- The words of a command line up to the comment sign `;`, separated by spaces; `w` is the word being read, reversed
(R53, log 16). -/
def lineWords : List Char → List Char → List (List Char)
  | w, [] => consWord w []
  | w, c :: cs =>
    if c = ';' then consWord w []
    else if c = ' ' then consWord w (lineWords [] cs)
    else lineWords (c :: w) cs

/-- A mnemonic, in capitals, applied to an operand (R53). -/
def mnemonic (m : List Char) (x : U256) : Except Refusal Instr :=
  if m = ['M', 'S', 'B'] then .ok (.msb x)
  else if m = ['L', 'S', 'B'] then .ok (.lsb x)
  else if m = ['C', 'L', 'Z'] then .ok (.clz x)
  else if m = ['C', 'T', 'Z'] then .ok (.ctz x)
  else .error .malformedCommand

/-- A command line: `<mnemonic> <literal>`, then an optional comment (R53). -/
def commandLine (cs : List Char) : Except Refusal Instr :=
  match lineWords [] cs with
  | [m, l] =>
    match literal l with
    | .ok x => mnemonic m x
    | .error r => .error r
  | _ => .error .malformedCommand

/-- The decimal digits of a number, most significant first. -/
def decimalDigits (n : Nat) : List Char :=
  Nat.toDigits 10 n

/-- The outcome of a command as text: `-> ok <index>` or `-> DomainError` (R53). -/
def outcomeText : Response → List Char
  | .ok r => ['-', '>', ' ', 'o', 'k', ' '] ++ decimalDigits r.toNat
  | .domainError => ['-', '>', ' ', 'D', 'o', 'm', 'a', 'i', 'n', 'E', 'r', 'r', 'o', 'r']

end Sys2Proof.Machine
end

