-- ==== Sys2Proof/Machine/Oracle.lean ====
section
/-! DEFINITION. References that statements compare the engines with; none is part of the block. The naive scan is the
source's oracle (R144). The two algorithms are the source's words of R66 and R86 over the natural numbers. -/

namespace Sys2Proof.Machine

/-- One iteration of the scan at bit `j`: the pair of the first and the last set bit met so far (R144). -/
def scanBit (x : U256) (found : Option Nat × Option Nat) (j : Nat) : Option Nat × Option Nat :=
  if x.getLsbD j then (if found.1 = none then some j else found.1, some j) else found

/-- The scan over bits 0, 1, ..., 255 in ascending order (R144). -/
def naiveScan (x : U256) : Option Nat × Option Nat :=
  (List.range 256).foldl (scanBit x) (none, none)

/-- "if x' ≥ 2^w, right-shift x' by w and add w to r", on the pair (x', r) (R66). -/
def msbThresholdStep (p : Nat × Nat) (w : Nat) : Nat × Nat :=
  if 2 ^ w ≤ p.1 then (p.1 / 2 ^ w, p.2 + w) else p

/-- The algorithm of R66 on natural numbers: "After the sequence, if x' ≥ 2 add 1 to r. Return r." -/
def msbAlgorithm (x : Nat) : Nat :=
  let p := [128, 64, 32, 16, 8, 4, 2].foldl msbThresholdStep (x, 0)
  if 2 ≤ p.1 then p.2 + 1 else p.2

/-- "If (x' AND M_w) ≠ 0, subtract w from r. Otherwise, right-shift x' by w", on the pair (x', r) (R86); the low w
bits of x' are x' mod 2^w (R108). -/
def lsbMaskStep (p : Nat × Nat) (w : Nat) : Nat × Nat :=
  if p.1 % 2 ^ w ≠ 0 then (p.1, p.2 - w) else (p.1 / 2 ^ w, p.2)

/-- The algorithm of R86 on natural numbers: "After the sequence, if (x' AND 1) ≠ 0 subtract 1 from r. Return r." -/
def lsbAlgorithm (x : Nat) : Nat :=
  let p := [128, 64, 32, 16, 8, 4, 2].foldl lsbMaskStep (x, 255)
  if p.1 % 2 ≠ 0 then p.2 - 1 else p.2

end Sys2Proof.Machine
end

