-- ==== Sys2Proof/Machine/System.lean ====
section
/-! DEFINITION. Runs: a sequence of requests served by one instance, and any number of instances under any schedule
(R169, R183; the number of instances is OPEN in R6: it is the length of the list). -/

namespace Sys2Proof.Machine

/-- Serve one request: present it and step. Presenting replaces a request that stands untaken, which then never gets a
response (DESIGN CHOICE, unsafe, log 22). -/
def serve (w : ReqWord) (s : State) : Host.Outcome State Fault Refusal :=
  step (presentRequest w s)

/-- Serve a sequence of requests on one instance, in order. -/
def serveAll : List ReqWord → State → Host.Outcome State Fault Refusal
  | [], s => .next s
  | w :: ws, s =>
    match serve w s with
    | .next t => serveAll ws t
    | .fault r => .fault r
    | .refused r => .refused r

/-- The instances of a system; they share nothing (R169). Their free values come from the same functions, each of its own
counter, so instances with equal counters draw equal values (DESIGN CHOICE, unsafe, log 26). -/
abbrev System := List State

/-- Instance `k` of the system serves one request, with `serve` and its choice (log 22). -/
def systemServe (k : Nat) (w : ReqWord) (sys : System) : Host.Outcome System Fault Refusal :=
  match sys[k]? with
  | none => .refused .noSuchInstance
  | some s =>
    match serve w s with
    | .next t => .next (sys.set k t)
    | .fault r => .fault r
    | .refused r => .refused r

/-- The fault mark of a run over the instances of a system: set when some instance's is. R172 and R183 do not say where
such a run keeps it; each instance's State holds the mark of its own responses alone (DESIGN CHOICE, log 24). -/
def systemFaultMark (sys : System) : Bool :=
  sys.any State.faultMark

/-- A schedule: which instance serves which request, in the order of time. An event marks only the instance it names;
the run's mark is `systemFaultMark` (log 24). -/
def systemRun : List (Nat × ReqWord) → System → Host.Outcome System Fault Refusal
  | [], sys => .next sys
  | e :: es, sys =>
    match systemServe e.1 e.2 sys with
    | .next sys' => systemRun es sys'
    | .fault r => .fault r
    | .refused r => .refused r

/-- The requests a schedule sends to instance `k`, in order. -/
def requestsOf (k : Nat) (es : List (Nat × ReqWord)) : List ReqWord :=
  (es.filter fun e => e.1 == k).map Prod.snd

/-- The response a request gets: a function of its `op` and `x` alone (R36). -/
def responseOf (w : ReqWord) : Response :=
  if isDomainError (decode w).operand then .domainError
  else .ok (viewOf (commandOf (decode w))
    (finishStages (engineOf (commandOf (decode w))) 0
      (engineLoad (engineOf (commandOf (decode w))) (decode w).operand)).r)

end Sys2Proof.Machine
end

