-- ==== Sys2Proof/Safety.lean ====
section
/-! DEFINITION. What statements call safe or invariant: a command that answers or fails, an instance that is ready for
a request (R180), the environment's record in order (R160, R172), and an operation in progress that really is one. -/

namespace Sys2Proof.Machine

/-- The command completes from `s` with a next state whose response is the result `r` with `err = 0` (R46). -/
def Answers (i : Instr) (s : State) (r : Index) : Prop :=
  ∃ t, exec i s = .next t ∧ t.response = some (.ok r)

/-- The command completes from `s` with a next state whose response is the domain error (R155, R158). -/
def Fails (i : Instr) (s : State) : Prop :=
  ∃ t, exec i s = .next t ∧ t.response = some .domainError

/-- Ready to take a request: reset released and no operation in progress (R180, R169). -/
abbrev Ready (s : State) : Prop :=
  s.resetIn = false ∧ s.running = none

/-- The environment's record is in order: the fault mark says whether some response of the run had `err = 1` (R172),
and a response that stands at the interface is the last one of the record. -/
abbrev RecordInv (s : State) : Prop :=
  s.faultMark = s.record.any errBit ∧ (s.response = none ∨ s.response = s.record.getLast?)

/-- An operation in progress comes from a nonzero operand and its engine's registers are those of its stages so far:
the zero check was made at entry and nothing outside the operation writes `X` or `R` (R13, R14, R16, R156). -/
def InFlightInv (s : State) : Prop :=
  ∀ op, s.running = some op →
    ∃ x : U256, x ≠ 0 ∧ engineRegs (engineOf op.cmd) s = engineAfter (engineOf op.cmd) x op.stage

end Sys2Proof.Machine
end

