-- ==== Sys2Proof/Certificates/Slice0/Obligations.lean ====
section
/-! DEFINITION. The statements for the provers: what the commands, the engines, the exception, the interface, reset and
a run do, from the numbered rules of spec/. Each is stated for every operand and every state its premises admit. -/

open Sys2Proof Sys2Proof.Machine

/-! ### Encoding -/

/-- Decode after encode and encode after decode are both the identity (an inference the spec marks as its own in
R55): for every command at every operand, and for every request word. -/
def Obligations.DecodeAndEncodeAreInverse : Prop :=
  (∀ i : Instr, i.wellFormed = true → decode (encode i) = i) ∧
  (∀ w : ReqWord, encode (decode w) = w)

/-- R55: the op field of a word, bits 257:256, decides which one of the four lines applies, with the operand in bits
255:0; and each command is encoded as its operation code before its operand. -/
def Obligations.EachWordHasOneDecoding : Prop :=
  (∀ w : ReqWord,
    ((w.extractLsb' 256 2 = 0b00#2 ∧ decode w = .msb (w.extractLsb' 0 256)) ∨
     (w.extractLsb' 256 2 = 0b01#2 ∧ decode w = .lsb (w.extractLsb' 0 256)) ∨
     (w.extractLsb' 256 2 = 0b10#2 ∧ decode w = .clz (w.extractLsb' 0 256)) ∨
     (w.extractLsb' 256 2 = 0b11#2 ∧ decode w = .ctz (w.extractLsb' 0 256)))) ∧
  (∀ x : U256,
    encode (.msb x) = 0b00#2 ++ x ∧ encode (.lsb x) = 0b01#2 ++ x ∧
    encode (.clz x) = 0b10#2 ++ x ∧ encode (.ctz x) = 0b11#2 ++ x)

/-- R45: bit i of the request is bit i of the operand, and bits 257:256 are the operation code. -/
def Obligations.RequestWordLayout : Prop :=
  ∀ i : Instr,
    (∀ j : Nat, j < 256 → (encode i).getLsbD j = i.operand.getLsbD j) ∧
    (encode i).getLsbD 256 = (opCode i).getLsbD 0 ∧
    (encode i).getLsbD 257 = (opCode i).getLsbD 1 ∧
    (∀ w : ReqWord, ∃ i : Instr, i.wellFormed = true ∧ encode i = w)

/-- The eight request words V80 to V87 of spec/95_test_vectors.md decode to the commands they are printed beside. -/
def Obligations.PrintedRequestWordsDecode : Prop :=
  decode 0x000000000000000000000000000000000000000000000000000000000499602D2#258 = .msb 1234567890 ∧
  decode 0x100000000000000000000000000000000000000000000000000000000499602D2#258 = .lsb 1234567890 ∧
  decode 0x200000000000000000000000000000000000000000000000000000000499602D2#258 = .clz 1234567890 ∧
  decode 0x300000000000000000000000000000000000000000000000000000000499602D2#258 = .ctz 1234567890 ∧
  decode 0x0000000000000010000000000ACF2596B26721108BAD53604FFD0775A87A767A9#258 =
    .msb 1606938044259977626524336601268507632356953233627996783863721 ∧
  decode 0x38000000000000000000000000000000000000000000000000000000000000000#258 = .ctz (BitVec.twoPow 256 255) ∧
  decode 0x00000000000000000000000000000000000000000000000000000000000000000#258 = .msb 0 ∧
  decode 0x2FFFFFFFFFFFFFFFFFFFFFFFFFFFFFFFFFFFFFFFFFFFFFFFFFFFFFFFFFFFFFFFF#258 = .clz (BitVec.allOnes 256)

/-- The numbers that are request words are read as their words, and every larger number is rejected by name. -/
def Obligations.NumberedWordsDecodeOrAreRejected : Prop :=
  ∀ n : Nat,
    (∀ i : Instr, n = (encode i).toNat → requestWord n = .ok (encode i) ∧ decodeTableWord 258 n = some i) ∧
    ((∀ i : Instr, n ≠ (encode i).toNat) → requestWord n = .error .widerThanRequest ∧ decodeTableWord 258 n = none)

/-- R46: bit 8 of the response word is err, bits 7:0 are the result when err = 0; a reader gets back what was sent,
whatever the r field holds under err = 1. -/
def Obligations.ResponseWordLayout : Prop :=
  ∀ free : Index,
    (∀ r : Index,
      (responseWordOf free (.ok r)).getLsbD 8 = false ∧
      (responseWordOf free (.ok r)).extractLsb' 0 8 = r) ∧
    (responseWordOf free .domainError).getLsbD 8 = true ∧
    (∀ rsp : Response, readResponseWord (responseWordOf free rsp) = rsp)

/-! ### The MSB engine -/

/-- R65: MSB answers the r of its contract, over the natural numbers as R189 has it, on every nonzero operand and fails
on zero. -/
def Obligations.MsbAnswersItsContract : Prop :=
  ∀ (x : U256) (s : State),
    (x ≠ 0 → ∃ (r : Index) (t : State), exec (.msb x) s = .next t ∧ t.response = some (.ok r) ∧
      msbContract x r ∧
      x.getLsbD r.toNat = true ∧ ∀ j : Nat, r.toNat < j → x.getLsbD j = false) ∧
    (x = 0 → ∃ t : State, exec (.msb x) s = .next t ∧ t.response = some .domainError)

/-- R66: MSB answers what the source's algorithm gives over the natural numbers and writes no other engine's registers;
on zero it fails before any stage; its request is `{0b00, x}`; its result range and its worked example with the stages
taken. That the registers it does not write keep what they held is log 5's row too. -/
def Obligations.MsbFollowsTheAlgorithm : Prop :=
  ∀ (x : U256) (s : State),
    encode (.msb x) = 0b00#2 ++ x ∧
    (x ≠ 0 → ∃ (r : Index) (t : State), exec (.msb x) s = .next t ∧ t.response = some (.ok r) ∧
      r.toNat = msbAlgorithm x.toNat ∧ t.lsb = s.lsb ∧ t.request = s.request) ∧
    (x = 0 → ∃ t : State, exec (.msb x) s = .next t ∧ t.response = some .domainError ∧
      t.msb = s.msb ∧ t.lsb = s.lsb ∧ t.request = s.request) ∧
    Answers (.msb 1) s 0 ∧ (2 ^ 255 ≤ x.toNat → Answers (.msb x) s 255) ∧
    Answers (.msb 1234567890) s 30 ∧
    ∀ k : Fin 8, msbDecision 1234567890 k = decide (3 ≤ k.val ∧ k.val ≤ 6)

/-- R67 and R68: what stage k of the MSB engine does to the working registers. -/
def Obligations.MsbStageEffect : Prop :=
  (∀ (k : Fin 8) (e : WorkRegs), k < 7 →
    (2 ^ 2 ^ (7 - k.val) ≤ e.x.toNat →
      (msbStage k e).x.toNat = e.x.toNat / 2 ^ 2 ^ (7 - k.val) ∧
      (msbStage k e).r = e.r + BitVec.ofNat 8 (2 ^ (7 - k.val))) ∧
    (e.x.toNat < 2 ^ 2 ^ (7 - k.val) → msbStage k e = e)) ∧
  (∀ e : WorkRegs,
    (msbStage 7 e).x = e.x ∧
    (2 ≤ e.x.toNat → (msbStage 7 e).r = e.r + 1) ∧
    (e.x.toNat < 2 → msbStage 7 e = e))

/-- R69 (an inference the spec marks as its own): the invariants after each halving stage of the MSB engine. -/
def Obligations.MsbStageInvariants : Prop :=
  ∀ (x : U256) (k : Nat), x ≠ 0 → k < 7 →
    (msbAfter x (k + 1)).x.toNat = x.toNat / 2 ^ (msbAfter x (k + 1)).r.toNat ∧
    1 ≤ (msbAfter x (k + 1)).x.toNat ∧ (msbAfter x (k + 1)).x.toNat < 2 ^ 2 ^ (7 - k) ∧
    2 ^ (7 - k) ∣ (msbAfter x (k + 1)).r.toNat ∧ (msbAfter x (k + 1)).r.toNat ≤ 256 - 2 ^ (7 - k)

/-- R71: the edge cases the source lists for MSB. -/
def Obligations.MsbEdgeCases : Prop :=
  ∀ s : State,
    Answers (.msb 1) s 0 ∧ (∀ k : Fin 8, msbDecision 1 k = false) ∧
    Answers (.msb 2) s 1 ∧ (∀ k : Fin 8, msbDecision 2 k = true ↔ k = 7) ∧
    Answers (.msb maxU) s 255 ∧ (∀ k : Fin 8, msbDecision maxU k = true) ∧
    (∀ k : Nat, k < 256 → Answers (.msb (BitVec.twoPow 256 k)) s (BitVec.ofNat 8 k))

/-! ### The LSB engine -/

/-- R85 and R136: LSB answers the r of its contract on every nonzero operand and fails on zero. -/
def Obligations.LsbAnswersItsContract : Prop :=
  ∀ (x : U256) (s : State),
    (x ≠ 0 → ∃ (r : Index) (t : State), exec (.lsb x) s = .next t ∧ t.response = some (.ok r) ∧
      lsbContract x r ∧
      x.getLsbD r.toNat = true ∧ ∀ j : Nat, j < r.toNat → x.getLsbD j = false) ∧
    (x = 0 → ∃ t : State, exec (.lsb x) s = .next t ∧ t.response = some .domainError)

/-- R86: LSB answers what the source's algorithm gives over the natural numbers and writes no other engine's registers;
on zero it fails before any stage; its request is `{0b01, x}`; its result range and its worked example with the mask
tests that are true. That the registers it does not write keep what they held is log 5's row too. -/
def Obligations.LsbFollowsTheAlgorithm : Prop :=
  ∀ (x : U256) (s : State),
    encode (.lsb x) = 0b01#2 ++ x ∧
    (x ≠ 0 → ∃ (r : Index) (t : State), exec (.lsb x) s = .next t ∧ t.response = some (.ok r) ∧
      r.toNat = lsbAlgorithm x.toNat ∧ t.msb = s.msb ∧ t.request = s.request) ∧
    (x = 0 → ∃ t : State, exec (.lsb x) s = .next t ∧ t.response = some .domainError ∧
      t.msb = s.msb ∧ t.lsb = s.lsb ∧ t.request = s.request) ∧
    (x.getLsbD 0 = true → Answers (.lsb x) s 0) ∧
    (Answers (.lsb x) s 255 ↔ x = BitVec.twoPow 256 255) ∧
    Answers (.lsb 1234567890) s 1 ∧
    ∀ k : Fin 8, lsbDecision 1234567890 k = decide (k.val ≤ 6)

/-- R87 and R88: what stage k of the LSB engine does to the working registers. -/
def Obligations.LsbStageEffect : Prop :=
  (∀ (k : Fin 8) (e : WorkRegs), k < 7 →
    (e.x.toNat % 2 ^ 2 ^ (7 - k.val) ≠ 0 →
      (lsbStage k e).x = e.x ∧ (lsbStage k e).r = e.r - BitVec.ofNat 8 (2 ^ (7 - k.val))) ∧
    (e.x.toNat % 2 ^ 2 ^ (7 - k.val) = 0 →
      (lsbStage k e).x.toNat = e.x.toNat / 2 ^ 2 ^ (7 - k.val) ∧ (lsbStage k e).r = e.r)) ∧
  (∀ e : WorkRegs,
    (lsbStage 7 e).x = e.x ∧
    (e.x.getLsbD 0 = true → (lsbStage 7 e).r = e.r - 1) ∧
    (e.x.getLsbD 0 = false → lsbStage 7 e = e))

/-- R89 (an inference the spec marks as its own): the invariants after each halving stage of the LSB engine, with the
total shift `sh` that the stages so far have made. -/
def Obligations.LsbStageInvariants : Prop :=
  ∀ (x : U256) (k : Nat), x ≠ 0 → k < 7 →
    ∃ sh : Nat,
      x.toNat = (lsbAfter x (k + 1)).x.toNat * 2 ^ sh ∧
      (lsbAfter x (k + 1)).x.toNat % 2 ^ 2 ^ (7 - k) ≠ 0 ∧
      (lsbAfter x (k + 1)).r.toNat + (256 - 2 ^ (7 - k)) = 255 + sh

/-- R91: the edge cases the source lists for LSB. -/
def Obligations.LsbEdgeCases : Prop :=
  ∀ s : State,
    Answers (.lsb 1) s 0 ∧ (∀ k : Fin 8, lsbDecision 1 k = true) ∧
    Answers (.lsb (BitVec.twoPow 256 255)) s 255 ∧ (∀ k : Fin 8, lsbDecision (BitVec.twoPow 256 255) k = false) ∧
    Answers (.lsb maxU) s 0 ∧ (∀ k : Fin 8, lsbDecision maxU k = true) ∧
    (∀ k : Nat, k < 256 → Answers (.lsb (BitVec.twoPow 256 k)) s (BitVec.ofNat 8 k))

/-- R131, R132, R70 and R90 (inferences the spec marks as its own): the MSB engine's stage decisions, and the LSB
engine's complemented, are the bits of the index, and the wired encoders give the accumulators. -/
def Obligations.StageDecisionsAreTheIndexBits : Prop :=
  ∀ x : U256,
    encodeMsb (msbDecision x) = (msbRun x).r ∧ encodeLsb (lsbDecision x) = (lsbRun x).r ∧
    ∀ k : Fin 8,
      (msbRun x).r.getLsbD (7 - k.val) = msbDecision x k ∧
      (lsbRun x).r.getLsbD (7 - k.val) = !lsbDecision x k

/-! ### The zero counts -/

/-- R75: CLZ answers 255 - m for the index m of MSB and fails on zero; its request is `{0b10, x}`; its corner cases and
its worked example. -/
def Obligations.ClzAnswersTheComplementedIndex : Prop :=
  ∀ (x : U256) (s : State),
    encode (.clz x) = 0b10#2 ++ x ∧
    (x ≠ 0 → ∃ (m c : Index) (t : State), Answers (.msb x) s m ∧
      exec (.clz x) s = .next t ∧ t.response = some (.ok c) ∧ c.toNat = 255 - m.toNat) ∧
    (x = 0 → ∃ t : State, exec (.clz x) s = .next t ∧ t.response = some .domainError) ∧
    Answers (.clz 1) s 255 ∧
    (2 ^ 255 ≤ x.toNat → Answers (.clz x) s 0) ∧
    (∀ k : Nat, k < 256 → Answers (.clz (BitVec.twoPow 256 k)) s (BitVec.ofNat 8 (255 - k))) ∧
    Answers (.clz 1234567890) s 225

/-- R95: CTZ gives the response of LSB for every operand, the index or the domain error; its request is `{0b11, x}`; its
corner cases and its worked example. -/
def Obligations.CtzAnswersTheLsbIndex : Prop :=
  ∀ (x : U256) (s : State),
    encode (.ctz x) = 0b11#2 ++ x ∧
    (x ≠ 0 → ∃ (n : Index) (t : State), Answers (.lsb x) s n ∧
      exec (.ctz x) s = .next t ∧ t.response = some (.ok n)) ∧
    (x = 0 → Fails (.lsb x) s ∧ ∃ t : State, exec (.ctz x) s = .next t ∧ t.response = some .domainError) ∧
    (x.getLsbD 0 = true → Answers (.ctz x) s 0) ∧
    (∀ k : Nat, k < 256 → Answers (.ctz (BitVec.twoPow 256 k)) s (BitVec.ofNat 8 k)) ∧
    Answers (.ctz 40960) s 13

/-- The meanings of CLZ and CTZ and R133 (inferences the spec marks as its own): they count the zero bits above the
most significant and below the least significant set bit; how the four results relate; the wired views. -/
def Obligations.ZeroCountsCountZeroBits : Prop :=
  ∀ (x : U256) (s : State), x ≠ 0 →
    ∃ m l c z : Index, Answers (.msb x) s m ∧ Answers (.lsb x) s l ∧ Answers (.clz x) s c ∧ Answers (.ctz x) s z ∧
      (∀ j : Nat, 255 - c.toNat < j → x.getLsbD j = false) ∧ x.getLsbD (255 - c.toNat) = true ∧
      (∀ j : Nat, j < z.toNat → x.getLsbD j = false) ∧ x.getLsbD z.toNat = true ∧
      c = ~~~m ∧ c.toNat + m.toNat = 255 ∧ z = l ∧ c.toNat + z.toNat ≤ 255 ∧
      (c.toNat + z.toNat = 255 ↔ ∃ i : Nat, x.toNat = 2 ^ i) ∧
      encodeClz (msbDecision x) = c ∧ encodeCtz (lsbDecision x) = z

/-! ### The properties of every result -/

/-- R135 and R189: property 1 in U256 arithmetic, with its guard: it is the same statement as the contract over the natural
numbers, and without the guard it fails for every operand whose index is 255, because 2^256 wraps to 0. The mask below
index 0 is 0. -/
def Obligations.MsbBoundWithGuard : Prop :=
  ∀ (x : U256) (s : State), x ≠ 0 →
    ∃ m : Index, Answers (.msb x) s m ∧ msbBound x m ∧
      (∀ n : Index, msbBound x n ↔ msbContract x n) ∧
      (m = 255 → gtU (powU (m.toNat + 1)) x = false) ∧ belowU 0 = 0

/-- R137 and R138: the index of the least significant set bit is at most that of the most significant, and both lie in
[0, 255]. -/
def Obligations.LsbIsAtMostMsb : Prop :=
  ∀ (x : U256) (s : State), x ≠ 0 →
    ∃ m l : Index, Answers (.msb x) s m ∧ Answers (.lsb x) s l ∧ l.toNat ≤ m.toNat ∧ m.toNat ≤ 255

/-- R139: the two indices are equal exactly when one bit is set, that is when the operand is a power of two. -/
def Obligations.IndicesEqualIffPowerOfTwo : Prop :=
  ∀ (x : U256) (s : State), x ≠ 0 →
    ∃ m l : Index, Answers (.msb x) s m ∧ Answers (.lsb x) s l ∧
      (m = l ↔ ∃! i : Fin 256, x.getLsbD i.val = true) ∧
      (m = l ↔ ∃ i : Nat, x.toNat = 2 ^ i)

/-- R140: shifting right by k with 0 < k ≤ LSB(x) lowers both indices by k. -/
def Obligations.ShiftLowersBothIndices : Prop :=
  ∀ (x : U256) (s : State), x ≠ 0 →
    ∃ m l : Index, Answers (.msb x) s m ∧ Answers (.lsb x) s l ∧
      ∀ k : Fin 256, 0 < k.val → k.val ≤ l.toNat →
        Answers (.lsb (shrU x k)) s (BitVec.ofNat 8 (l.toNat - k.val)) ∧
        Answers (.msb (shrU x k)) s (BitVec.ofNat 8 (m.toNat - k.val))

/-- R141 and R142: for a single set bit at index i both commands answer i; for all ones they answer 255 and 0. -/
def Obligations.SingleBitAndAllOnesIndices : Prop :=
  (∀ (i : Nat) (s : State), i < 256 →
    Answers (.msb (BitVec.twoPow 256 i)) s (BitVec.ofNat 8 i) ∧
    Answers (.lsb (BitVec.twoPow 256 i)) s (BitVec.ofNat 8 i)) ∧
  (∀ s : State, Answers (.msb (BitVec.allOnes 256)) s 255 ∧ Answers (.lsb (BitVec.allOnes 256)) s 0)

/-- R144: the engines agree with the naive scan. -/
def Obligations.EnginesAgreeWithTheNaiveScan : Prop :=
  ∀ (x : U256) (s : State), x ≠ 0 →
    ∃ m l : Index, Answers (.msb x) s m ∧ Answers (.lsb x) s l ∧
      naiveScan x = (some l.toNat, some m.toNat)

/-- R146 (an inference the spec marks as its own): the closed forms, floor(log2 x) and the exponent of the largest
power of two that divides x. -/
def Obligations.ClosedFormsOfTheIndices : Prop :=
  ∀ (x : U256) (s : State), x ≠ 0 →
    ∃ m l : Index, Answers (.msb x) s m ∧ Answers (.lsb x) s l ∧
      m.toNat = Nat.log 2 x.toNat ∧
      2 ^ l.toNat ∣ x.toNat ∧ ¬ 2 ^ (l.toNat + 1) ∣ x.toNat

/-- The scenarios S1 to S6 of spec/95_test_vectors.md, with S3's MSB as 90_conflicts.md C1 resolves it: 200. -/
def Obligations.SourceScenarios : Prop :=
  ∀ s : State,
    Answers (.lsb 1234567890) s 1 ∧ Answers (.msb 1234567890) s 30 ∧
    Answers (.lsb 57896044618658097711785492504343953926634992332820282019728792004938939802342) s 1 ∧
    Answers (.msb 57896044618658097711785492504343953926634992332820282019728792004938939802342) s 255 ∧
    Answers (.lsb 1606938044259977626524336601268507632356953233627996783863721) s 0 ∧
    Answers (.msb 1606938044259977626524336601268507632356953233627996783863721) s 200 ∧
    Answers (.lsb 1037042214541001286141) s 0 ∧ Answers (.msb 1037042214541001286141) s 69 ∧
    Answers (.lsb (BitVec.allOnes 256)) s 0 ∧ Answers (.msb (BitVec.allOnes 256)) s 255 ∧
    Answers (.lsb 97896044618658097711785492504343953926634992332820282019728792004938939802342) s 1 ∧
    Answers (.msb 97896044618658097711785492504343953926634992332820282019728792004938939802342) s 255

/-! ### The U256 surface -/

/-- R12 and R48: a U256 is the weighted sum of its limbs, and splitting and assembling undo each other. -/
def Obligations.LimbsHoldTheValue : Prop :=
  (∀ x : U256,
    x.toNat = (toLimbs x).l0.toNat + (toLimbs x).l1.toNat * 2 ^ 64 + (toLimbs x).l2.toNat * 2 ^ 128 +
      (toLimbs x).l3.toNat * 2 ^ 192 ∧
    ofLimbs (toLimbs x) = x) ∧
  (∀ l : Limbs, toLimbs (ofLimbs l) = l)

/-- The limb forms of GE, AND and SHR (inferences the spec marks as its own in R105 and R109) agree with the
whole-value forms. -/
def Obligations.LimbFormsAgree : Prop :=
  ∀ a b : U256,
    geLimbs (toLimbs a) (toLimbs b) = geU a b ∧
    ofLimbs (andLimbs (toLimbs a) (toLimbs b)) = andU a b ∧
    ofLimbs (shrLimbs128 (toLimbs a)) = shrU a 128 ∧
    ofLimbs (shrLimbs64 (toLimbs a)) = shrU a 64 ∧
    ∀ s : Fin 64, ofLimbs (shrLimbsBelow64 s (toLimbs a)) = shrU a ⟨s.val, by omega⟩

/-- R105, R106 and R107: GE and GT are the unsigned orders, EQ is agreement in all 256 bits, and their corner cases. -/
def Obligations.ComparisonsAreUnsigned : Prop :=
  ∀ a b : U256,
    (geU a b = true ↔ b.toNat ≤ a.toNat) ∧
    (gtU a b = true ↔ b.toNat < a.toNat) ∧ gtU a b = (geU a b && !eqU a b) ∧
    (eqU a b = true ↔ ∀ i : Nat, i < 256 → a.getLsbD i = b.getLsbD i) ∧
    geU a a = true ∧ geU zeroU zeroU = true ∧ geU maxU b = true ∧
    geU (lowMask .w128) (threshold .w128) = false ∧ geU (threshold .w128) (threshold .w128) = true ∧
    gtU a a = false ∧ gtU zeroU b = false ∧ gtU oneU zeroU = true

/-- R108: AND bit by bit; a mask keeps the low w bits; a single-bit value tests one bit. -/
def Obligations.AndKeepsCommonBits : Prop :=
  ∀ a b : U256,
    (∀ i : Nat, i < 256 → (andU a b).getLsbD i = (a.getLsbD i && b.getLsbD i)) ∧
    (∀ w : Width, (andU a (lowMask w)).toNat = a.toNat % 2 ^ widthBits w) ∧
    (∀ i : Nat, i < 256 → andU a (BitVec.twoPow 256 i) = if a.getLsbD i then BitVec.twoPow 256 i else 0) ∧
    andU a zeroU = zeroU ∧ andU a maxU = a ∧ andU a a = a ∧
    andU 0xA000 0xFF = 0 ∧ andU 0xA0 0xF = 0 ∧ andU 0xA 0x3 = 0x2 ∧
    ofLimbs (andLimbs (toLimbs a) (toLimbs b)) = andU a b

/-- R109 for the whole value: SHR is a logical shift for 0 to 255 and has no result for 256 or more. -/
def Obligations.ShiftIsLogicalAndBounded : Prop :=
  ∀ (a : U256) (s : Nat),
    (∀ h : s < 256,
      shrNat a s = .ok (shrU a ⟨s, h⟩) ∧
      (shrU a ⟨s, h⟩).toNat = a.toNat / 2 ^ s ∧
      ∀ i : Nat, (shrU a ⟨s, h⟩).getLsbD i = if i + s ≤ 255 then a.getLsbD (i + s) else false) ∧
    (256 ≤ s → shrNat a s = .error .shiftAmountUndefined) ∧
    shrU a 0 = a

/-- The sixteen constants, and the equation that names the masks as MAX shifted right. -/
def Obligations.ConstantsHaveTheirValues : Prop :=
  zeroU.toNat = 0 ∧ oneU.toNat = 1 ∧ maxU.toNat = 2 ^ 256 - 1 ∧
  ∀ w : Width,
    (threshold w).toNat = 2 ^ widthBits w ∧
    (lowMask w).toNat = 2 ^ widthBits w - 1 ∧
    shrNat maxU (256 - widthBits w) = .ok (lowMask w)

/-- R113: construction from a native small unsigned integer. -/
def Obligations.SmallIntegersAreZeroExtended : Prop :=
  ∀ n : Limb, (fromSmall n).toNat = n.toNat ∧ toLimbs (fromSmall n) = ⟨n, 0, 0, 0⟩

/-- R114: a decimal literal is accepted exactly when it is one or more digits whose base-ten reading is at most
2^256 - 1, and then it denotes that value. -/
def Obligations.DecimalLiteralsAreReadOrRefused : Prop :=
  ∀ cs : List Char,
    (∀ x : U256, decimalLiteral cs = .ok x ↔
      cs ≠ [] ∧ (∀ c ∈ cs, '0' ≤ c ∧ c ≤ '9') ∧
      Nat.ofDigits 10 (cs.reverse.map fun c => c.toNat - 48) = x.toNat) ∧
    ((∀ x : U256, decimalLiteral cs ≠ .ok x) → decimalLiteral cs = .error .malformedLiteral)

/-- R115: the digits of a hexadecimal literal are accepted exactly when there are 1 to 64 of them, in either case, and
then they denote their base-sixteen reading. -/
def Obligations.HexLiteralsAreReadOrRefused : Prop :=
  ∀ cs : List Char,
    (∀ x : U256, literal ('0' :: 'x' :: cs) = .ok x ↔
      1 ≤ cs.length ∧ cs.length ≤ 64 ∧
      (∀ c ∈ cs, ('0' ≤ c ∧ c ≤ '9') ∨ ('a' ≤ c ∧ c ≤ 'f') ∨ ('A' ≤ c ∧ c ≤ 'F')) ∧
      Nat.ofDigits 16 (cs.reverse.map fun c =>
        if c ≤ '9' then c.toNat - 48 else if c ≤ 'F' then c.toNat - 55 else c.toNat - 87) = x.toNat) ∧
    ((∀ x : U256, literal ('0' :: 'x' :: cs) ≠ .ok x) →
      literal ('0' :: 'x' :: cs) = .error .malformedLiteral)

/-- R117 (an inference the spec marks as its own): no addition of the MSB engine overflows eight bits and no
subtraction of the LSB engine goes below zero. -/
def Obligations.IndexArithmeticNeverWraps : Prop :=
  ∀ (x : U256) (k : Fin 8),
    (msbDecision x k = true → (msbAfter x k).r.toNat + widthBits (stageWidth k) ≤ 255) ∧
    (lsbDecision x k = true → widthBits (stageWidth k) ≤ (lsbAfter x k).r.toNat)

/-! ### The domain error -/

/-- R155 and R17: every command answers; the response is the domain error exactly when the operand is zero, and a
result with err = 0 otherwise. -/
def Obligations.DomainErrorExactlyOnZero : Prop :=
  ∀ (i : Instr) (s : State),
    ∃ (t : State) (rsp : Response), exec i s = .next t ∧ t.response = some rsp ∧
      (errBit rsp = true ↔ i.operand = 0) ∧ (rsp = .domainError ↔ i.operand = 0)

/-- R156 and R158: what the domain error does: the response with err = 1 and readiness for the next request, and
nothing else in the block: no working register is loaded, no request is touched. -/
def Obligations.DomainErrorEntryAndFrame : Prop :=
  ∀ (i : Instr) (s : State), i.operand = 0 →
    ∃ t : State, exec i s = .next t ∧
      t.response = some .domainError ∧ t.running = none ∧ t.msb = s.msb ∧ t.lsb = s.lsb ∧ t.request = s.request ∧ t.resetIn = s.resetIn ∧
      ∃ word : RspWord, responseWord t = some word ∧ word.getLsbD 8 = true

/-- R73 and R93 (inferences the spec marks as its own): the stages would turn zero into valid indices, and no command
returns them; the source's spelling of the entry check, x > 0, is the same check (an inference the spec marks in R106);
the run's record and fault mark, which the model holds in State (log 7), take the failure. -/
def Obligations.ZeroNeverFallsThrough : Prop :=
  (msbRun 0).r = 0 ∧ (lsbRun 0).r = 255 ∧
  (∀ x : U256, gtU x zeroU = !eqU x zeroU) ∧
  ∀ (i : Instr) (s : State), i.operand = 0 →
    (∃ t : State, exec i s = .next t ∧ t.response = some .domainError ∧
      t.record = s.record ++ [.domainError] ∧ t.faultMark = true) ∧
    ∀ r : Index, ¬ Answers i s r

/-- R161: no other failure: every command completes, on a nonzero operand with a result; no word is refused and no
shift by a stage width is out of range. -/
def Obligations.NoOtherFailure : Prop :=
  (∀ (i : Instr) (s : State), (∃ t : State, exec i s = .next t) ∧ (i.operand ≠ 0 → ∃ r : Index, Answers i s r)) ∧
  (∀ w : ReqWord, requestWord w.toNat = .ok w) ∧
  (∀ (a : U256) (w : Width), ∃ c : U256, shrNat a (widthBits w) = .ok c)

/-- R165 (an inference the spec marks as its own): after a failing request the next one is answered as if the failing
one had never been made. -/
def Obligations.FailureLeavesTheNextRequestAlone : Prop :=
  ∀ (s : State) (bad w : ReqWord), Ready s → (decode bad).operand = 0 →
    ∃ t u : State, serveAll [bad, w] s = .next t ∧ serveAll [w] s = .next u ∧
      t.response = u.response ∧ t.response ≠ none ∧ t.record = s.record ++ .domainError :: u.record.drop s.record.length

/-- R172: out of reset, a step changes the fault mark only by setting it for a response it gives with err = 1, and never
clears it; the block does not latch the error: the mark changes no response. -/
def Obligations.FaultMarkIsNeverCleared : Prop :=
  (∀ s t : State, s.resetIn = false → step s = .next t →
    (∃ given : List Response, t.record = s.record ++ given ∧ t.faultMark = (s.faultMark || given.any errBit)) ∧
    (s.faultMark = true → t.faultMark = true)) ∧
  (∀ (s : State) (w : ReqWord) (mark : Bool), Ready s →
    ∃ (t u : State) (rsp : Response), serve w s = .next t ∧ serve w { s with faultMark := mark } = .next u ∧
      t.response = some rsp ∧ u.response = some rsp)

/-! ### Frames -/

/-- MSB and CLZ on a nonzero operand: the LSB engine's registers, the request, reset and the fault mark are unchanged,
the record grows by the response, and no operation is left in progress. -/
def Obligations.MsbAndClzFrame : Prop :=
  ∀ (x : U256) (s t : State), x ≠ 0 → (exec (.msb x) s = .next t ∨ exec (.clz x) s = .next t) →
    t.lsb = s.lsb ∧ t.request = s.request ∧ t.resetIn = s.resetIn ∧ t.faultMark = s.faultMark ∧ t.running = none ∧
      ∃ r : Index, t.response = some (.ok r) ∧ t.record = s.record ++ [.ok r]

/-- LSB and CTZ on a nonzero operand: the MSB engine's registers, the request, reset and the fault mark are unchanged,
the record grows by the response, and no operation is left in progress. -/
def Obligations.LsbAndCtzFrame : Prop :=
  ∀ (x : U256) (s t : State), x ≠ 0 → (exec (.lsb x) s = .next t ∨ exec (.ctz x) s = .next t) →
    t.msb = s.msb ∧ t.request = s.request ∧ t.resetIn = s.resetIn ∧ t.faultMark = s.faultMark ∧ t.running = none ∧
      ∃ r : Index, t.response = some (.ok r) ∧ t.record = s.record ++ [.ok r]

/-! ### Steps, requests and runs -/

/-- When a request is presented to a ready block, a step takes it (no request is left, no earlier response stands) and
is exec of the decoded command; with no request the block stays as it is; no step stops. The staying idle is the model's
choice (log 10). -/
def Obligations.StepRunsTheDecodedRequest : Prop :=
  (∀ (s : State) (i : Instr), s.resetIn = false → s.running = none → s.request = some (encode i) → i.wellFormed = true →
    step s = exec i { s with request := none, response := none }) ∧
  (∀ s : State, s.resetIn = false → s.running = none → s.request = none → step s = .next s) ∧
  (∀ s : State, ∃ t : State, step s = .next t)

/-- A request placed by the host is the next step's command, from any state. -/
def Obligations.PlacedRequestRunsNext : Prop :=
  ∀ (s : State) (i : Instr), i.wellFormed = true →
    step (s.withFetchWord 258 (encode i).toNat) =
      exec i { s with resetIn := false, running := none, request := none, response := none }

/-- R36: a response depends on its request alone; two requests commute; a request repeated gets the same response. -/
def Obligations.OperationsDoNotInteract : Prop :=
  (∀ (w : ReqWord) (s s' : State), Ready s → Ready s' →
    ∃ (t t' : State) (rsp : Response), serve w s = .next t ∧ serve w s' = .next t' ∧
      t.response = some rsp ∧ t'.response = some rsp) ∧
  (∀ (a b : ReqWord) (s : State), Ready s →
    ∃ (t u : State) (ra rb : Response), serveAll [a, b] s = .next t ∧ serveAll [b, a] s = .next u ∧
      t.record = s.record ++ [ra, rb] ∧ u.record = s.record ++ [rb, ra]) ∧
  (∀ (w : ReqWord) (s : State), Ready s →
    ∃ (t : State) (rsp : Response), serveAll [w, w] s = .next t ∧ t.record = s.record ++ [rsp, rsp])

/-- What the working registers hold before a step, and the free-value counter, change no response, no record and no
mark: no reset value can reach a result. -/
def Obligations.WorkingRegistersNeverReachAResult : Prop :=
  ∀ (s t : State) (m l : WorkRegs) (d : Nat), s.running = none → step s = .next t →
    ∃ t' : State, step { s with msb := m, lsb := l, draws := d } = .next t' ∧
      t'.response = t.response ∧ t'.record = t.record ∧ t'.faultMark = t.faultMark ∧
      t'.request = t.request ∧ t'.running = t.running ∧ t'.resetIn = t.resetIn

/-- A run of any sequence of requests on a ready instance ends ready, with one response per request in order, each a
function of its request alone, and the fault mark set exactly when it was set before or some operand was zero; the
response function is what the commands answer. Record and mark stand in State by the model's choice (log 7). -/
def Obligations.RunIsTheSequenceOfItsResponses : Prop :=
  (∀ (ws : List ReqWord) (s : State), Ready s →
    ∃ t : State, serveAll ws s = .next t ∧ Ready t ∧
      t.record = s.record ++ ws.map responseOf ∧
      t.faultMark = (s.faultMark || ws.any fun w => (decode w).operand == 0)) ∧
  (∀ (i : Instr) (s : State), ∃ t : State, exec i s = .next t ∧ t.response = some (responseOf (encode i)))

/-- Any number of instances under any schedule: each instance ends as if it alone had served its own requests in
order; and from ready instances the run's mark is set exactly when it was set before or some operand was zero. That
running at once is a schedule of whole operations is the model's inference (log 14), and where the run's mark is kept is
its choice (log 24). That the two ends agree in their idle registers too rests on its one law for free values (log 26). -/
def Obligations.SchedulesDoNotMatter : Prop :=
  ∀ (es : List (Nat × ReqWord)) (sys : System), (∀ e ∈ es, e.1 < sys.length) →
    ∃ sys' : System, systemRun es sys = .next sys' ∧ sys'.length = sys.length ∧
      (∀ (k : Nat) (s : State), sys[k]? = some s →
        ∃ t : State, sys'[k]? = some t ∧ serveAll (requestsOf k es) s = .next t) ∧
      ((∀ s ∈ sys, Ready s) →
        systemFaultMark sys' = (systemFaultMark sys || es.any fun e => (decode e.2).operand == 0))

/-! ### The stage-level unfolding -/

/-- Nine ticks (one to take and check the request, eight stages) are one step on a nonzero operand, with no response
before the ninth; one tick is one step on a zero operand; and a step completes an operation in progress at stage k as
the 8 - k ticks that are left do, which is the model's choice (log 19); while reset is asserted a tick is a step. The
ticks are the model's unfolding, no time (log 13). That the ends agree in their idle registers too rests on the model's
one law for free values (log 26). -/
def Obligations.StepIsItsStageTicks : Prop :=
  (∀ (s : State) (w : ReqWord), Ready s → s.request = some w →
    ((decode w).operand ≠ 0 → step s = .next (ticks 9 s) ∧
      ∀ n : Nat, 0 < n → n < 9 → (ticks n s).running ≠ none ∧ (ticks n s).response = none ∧
        (ticks n s).record = s.record) ∧
    ((decode w).operand = 0 → step s = .next (ticks 1 s))) ∧
  (∀ (s : State) (op : Running), s.resetIn = false → s.running = some op →
    step s = .next (ticks (8 - op.stage.val) s)) ∧
  (∀ s : State, s.resetIn = true → step s = .next (tick s))

/-- R181: the start of an operation loads the working registers and the stage number, whatever they held. That the check
and the load are one tick is the model's choice (log 13), and that the other engine's registers are unchanged is its
inference (log 5). -/
def Obligations.OperationStartLoadsTheEngine : Prop :=
  ∀ (s : State) (i : Instr), Ready s → s.request = some (encode i) → i.operand ≠ 0 →
    (tick s).running = some ⟨commandOf i, 0⟩ ∧
    (engineOf (commandOf i) = .msbLzc → (tick s).msb = ⟨i.operand, 0⟩ ∧ (tick s).lsb = s.lsb) ∧
    (engineOf (commandOf i) = .lsbTz → (tick s).lsb = ⟨i.operand, 255⟩ ∧ (tick s).msb = s.msb)

/-! ### Reset -/

/-- Right after reset: released, idle, no response pending, the first request is answered like any other. -/
def Obligations.ResetLeavesTheBlockIdle : Prop :=
  State.reset.resetIn = false ∧ State.reset.running = none ∧ State.reset.response = none ∧
  ∀ w : ReqWord, ∃ t : State, serve w State.reset = .next t ∧ t.response = some (responseOf w)

/-- R180: an operation in progress is dropped without a response when reset is asserted; while it is asserted nothing is
accepted and nothing is answered; when it is released, from any state in which it is asserted, with or without a step
before, the block is idle, no response is pending and the first request is answered like any other. That reset acts at the
moment it is asserted, withdraws a standing response then and needs no step before release is the model's choice (log 23),
and so is the record's place in State, which reset leaves as it is (log 7). -/
def Obligations.ResetDropsTheOperation : Prop :=
  (∀ s : State,
    (assertReset s).resetIn = true ∧ (assertReset s).running = none ∧ (assertReset s).response = none ∧
    (assertReset s).record = s.record) ∧
  (∀ s : State, s.resetIn = true →
    (∃ t : State, step s = .next t ∧ t.resetIn = true ∧ t.running = none ∧ t.response = none ∧
      t.record = s.record) ∧
    Ready (releaseReset s) ∧ (releaseReset s).response = none ∧ (releaseReset s).record = s.record ∧
    ∀ w : ReqWord, ∃ u : State, serve w (releaseReset s) = .next u ∧ u.response = some (responseOf w))

/-! ### Invariants -/

/-- Every step keeps the environment's record in order. -/
def Obligations.RecordStaysInOrder : Prop :=
  ∀ s t : State, RecordInv s → step s = .next t → RecordInv t

/-- The record is in order and no operation is in progress right after reset, so the invariant of the operation in
progress holds. The record and its mark stand in State, empty and clear at reset, by the model's choice (log 7). -/
def Obligations.RecordAndOperationInvariantsAtReset : Prop :=
  RecordInv State.reset ∧ State.reset.running = none ∧ InFlightInv State.reset

/-- Every step and every tick keeps the invariant of the operation in progress: its working registers are those of its
stages so far on a nonzero operand. -/
def Obligations.OperationInProgressStaysItsStages : Prop :=
  ∀ s : State, InFlightInv s → InFlightInv (tick s) ∧ ∀ t : State, step s = .next t → InFlightInv t

/-! ### The caller -/

/-- R49 and R171 on the caller's side: a result is read as it is, an index under err = 1 cannot be read, a second
request before the response is not sent, and a response taken is gone; a request without a response at a reset gets none,
and its reissue is sent and answered. What becomes of such a request is the model's inference (log 9). The model's choices
are how a broken duty shows (log 15), that reset acts at once, withdraws a standing response and needs no step before
release (log 23), the record's place in State, which reset keeps (log 7), the idle step after release (log 10) and how long
a response stands (log 11). -/
def Obligations.CallerDuties : Prop :=
  (∀ r : Index, readIndex (.ok r) = .ok r) ∧
  readIndex .domainError = .error .indexReadUnderError ∧
  (∀ (w : ReqWord) (s : State), s.request ≠ none ∨ s.running ≠ none → callerSend w s = .error .requestOverlap) ∧
  (∀ (w : ReqWord) (s : State), s.request = none → s.running = none →
    callerSend w s = .ok { s with request := some w }) ∧
  (∀ (s : State) (rsp : Response), s.response = some rsp → callerTake s = some (rsp, { s with response := none })) ∧
  (∀ s : State, ∃ t : State, step (releaseReset (assertReset s)) = .next t ∧ t.response = none ∧ t.record = s.record) ∧
  (∀ (w : ReqWord) (s : State), ∃ t u : State, callerSend w (releaseReset (assertReset s)) = .ok t ∧
    step t = .next u ∧ u.response = some (responseOf w) ∧ u.record = s.record ++ [responseOf w])
end

