-- ==== Sys2Proof/Laws/Operands.lean ====
section
/-! SUPPORT. What each primitive of the U256 surface and each constant is over the natural numbers; the engines'
proofs cite these and do not unfold the primitives. -/

namespace Sys2Proof.Machine

@[simp] theorem zeroU_eq : zeroU = 0 := rfl

/-- GE is the order of the natural numbers (R105). -/
theorem geU_iff (a b : U256) : geU a b = true ↔ b.toNat ≤ a.toNat := by
  simp [geU, BitVec.ule]

/-- GT compares as natural numbers (R106). -/
theorem gtU_iff (a b : U256) : gtU a b = true ↔ b.toNat < a.toNat := by
  simp [gtU, BitVec.ult]

/-- EQ is equality (R107). -/
theorem eqU_iff (a b : U256) : eqU a b = true ↔ a = b := by
  simp [eqU]

/-- SHR divides by a power of two and rounds down (R109). -/
theorem shrU_toNat (a : U256) (s : Fin 256) : (shrU a s).toNat = a.toNat / 2 ^ s.val := by
  simp [shrU, Nat.shiftRight_eq_div_pow]

/-- `T_w` is 2^w (R111). -/
theorem threshold_toNat (w : Width) : (threshold w).toNat = 2 ^ widthBits w := by
  cases w <;> decide

/-- `M_w` is 2^w - 1 (R112). -/
theorem lowMask_toNat (w : Width) : (lowMask w).toNat = 2 ^ widthBits w - 1 := by
  cases w <;> decide

/-- A stage shifts by its width (R51). -/
theorem widthShift_val (w : Width) : (widthShift w).val = widthBits w := by
  cases w <;> rfl

/-- The amount a stage adds or subtracts is its width: it fits eight bits (R51, R117). -/
theorem widthIndex_toNat (w : Width) : (widthIndex w).toNat = widthBits w := by
  cases w <;> decide

/-- AND with `M_w` is the low w bits (R108). -/
theorem andU_lowMask_toNat (a : U256) (w : Width) :
    (andU a (lowMask w)).toNat = a.toNat % 2 ^ widthBits w := by
  rw [andU, BitVec.toNat_and, lowMask_toNat, Nat.and_two_pow_sub_one_eq_mod]

/-- The mask test of the LSB engine says that the low w bits are not all zero (R87). -/
theorem andU_lowMask_eq_zero (a : U256) (w : Width) :
    eqU (andU a (lowMask w)) zeroU = true ↔ a.toNat % 2 ^ widthBits w = 0 := by
  rw [eqU_iff, ← BitVec.toNat_inj, andU_lowMask_toNat]
  simp

/-- The domain-error condition is that the operand is zero (R155). -/
@[simp] theorem isDomainError_iff (x : U256) : isDomainError x = true ↔ x = 0 := by
  simp [isDomainError, eqU_iff]

@[simp] theorem isDomainError_eq_false (x : U256) : isDomainError x = false ↔ x ≠ 0 := by
  rw [← Bool.not_eq_true, isDomainError_iff]

end Sys2Proof.Machine
end

