-- ==== Sys2Proof/Laws/Contract.lean ====
section
/-! SUPPORT. What the powers of the contracts are over the natural numbers, and that the guarded bound over U256 values is
the contract over the natural numbers (R189). -/

namespace Sys2Proof.Machine

/-- A power of two below 2^256 is itself. -/
theorem powU_toNat {i : Nat} (h : i < 256) : (powU i).toNat = 2 ^ i := by
  rw [powU, BitVec.toNat_twoPow, Nat.mod_eq_of_lt (Nat.pow_lt_pow_right (by decide) h)]

/-- 2^256 is no U256: it wraps to 0 (R189). -/
theorem powU_width : powU 256 = 0 := by decide

/-- Below bit 0 there is nothing: 2^0 - 1 is 0 (R136, R189). -/
theorem belowU_zero : belowU 0 = 0 := by decide

/-- The bits below an index, over the natural numbers: the subtraction does not wrap. -/
theorem belowU_toNat {i : Nat} (h : i < 256) : (belowU i).toNat = 2 ^ i - 1 := by
  have hp : (1 : U256).toNat ≤ (powU i).toNat := by rw [powU_toNat h]; exact Nat.one_le_two_pow
  rw [belowU, BitVec.toNat_sub_of_le (BitVec.le_def.2 hp), powU_toNat h]
  rfl

/-- The guarded bound over U256 values says what the contract says over the natural numbers (R189, R135). -/
theorem msbBound_iff (x : U256) (m : Index) : msbBound x m ↔ msbContract x m := by
  rw [msbBound, msbContract, geU_iff, powU_toNat m.isLt]
  refine and_congr_right fun _ => ?_
  by_cases h : m = 255
  · subst h
    exact ⟨fun _ => x.isLt, fun _ => .inl rfl⟩
  · have hlt : m.toNat + 1 < 256 := by
      have := m.isLt
      have hne : m.toNat ≠ 255 := fun e => h (BitVec.eq_of_toNat_eq e)
      omega
    rw [gtU_iff, powU_toNat hlt]
    exact or_iff_right h

end Sys2Proof.Machine
end

