-- ==== Sys2Proof/Laws/Decode.lean ====
section
/-! SUPPORT. The two fields of a request word (R45). -/

namespace Sys2Proof

set_option exponentiation.threshold 258

/-- The `op` field of an encoded command is its operation code. -/
theorem opField_encode (i : Instr) : opField (encode i) = opCode i := by
  apply BitVec.eq_of_getLsbD_eq
  intro j hj
  rw [opField, BitVec.getLsbD_extractLsb', encode, BitVec.getLsbD_append]
  simp [hj]

/-- The operand field of an encoded command is its operand. -/
theorem operandField_encode (i : Instr) : operandField (encode i) = i.operand := by
  apply BitVec.eq_of_getLsbD_eq
  intro j hj
  rw [operandField, BitVec.getLsbD_extractLsb', encode, BitVec.getLsbD_append]
  simp [hj]

/-- A request word is its two fields. -/
theorem opField_append_operandField (w : ReqWord) : opField w ++ operandField w = w := by
  apply BitVec.eq_of_getLsbD_eq
  intro j hj
  rw [BitVec.getLsbD_append, opField, operandField, BitVec.getLsbD_extractLsb', BitVec.getLsbD_extractLsb']
  by_cases h : j < 256
  · simp [h]
  · rw [show 256 + (j - 256) = j by omega]
    simp [h]
    intro h'
    omega

/-- The four values of the `op` field (R47). -/
theorem opSel_cases (o : OpSel) : o = 0b00#2 ∨ o = 0b01#2 ∨ o = 0b10#2 ∨ o = 0b11#2 := by
  revert o
  decide

end Sys2Proof
end

