-- ==== Sys2Proof/Laws/Engines.lean ====
section
/-! SUPPORT. The engines stage by stage: what each test says over the natural numbers, that the whole run is the eight
stages in order, and the equations a proof by stages rests on (unfolding a run of eight stages in one go is slow). -/

namespace Sys2Proof.Machine

/-- The MSB test is a comparison with 2^w (R67). -/
theorem msbTest_iff (w : Width) (e : WorkRegs) : msbTest w e = true ↔ 2 ^ widthBits w ≤ e.x.toNat := by
  rw [msbTest, geU_iff, threshold_toNat]

/-- The LSB test says that the low w bits are not all zero (R87). -/
theorem lsbTest_iff (w : Width) (e : WorkRegs) : lsbTest w e = true ↔ e.x.toNat % 2 ^ widthBits w ≠ 0 := by
  rw [lsbTest, Bool.not_eq_true', ← Bool.not_eq_true, andU_lowMask_eq_zero]

/-- Stage k has width 2^(7 - k) (R51). -/
theorem stageWidth_bits (k : Fin 8) : widthBits (stageWidth k) = 2 ^ (7 - k.val) := by
  fin_cases k <;> rfl

/-- The amount stage k adds or subtracts is bit 7 - k of the index (R70, R90). -/
theorem widthIndex_stageWidth (k : Fin 8) : widthIndex (stageWidth k) = BitVec.twoPow 8 (7 - k.val) := by
  revert k
  decide

/-- The stages are numbered in order (R16). -/
theorem allStages_getElem (k : Fin 8) : allStages[k.val]? = some k := by
  fin_cases k <;> rfl

/-- The seven halving stages are stages 0 to 6 (R51). -/
theorem halvingWidths_eq_map :
    halvingWidths = ([0, 1, 2, 3, 4, 5, 6] : List (Fin 8)).map stageWidth := rfl

theorem msbStage_of_ne {k : Fin 8} (h : k ≠ 7) (e : WorkRegs) : msbStage k e = msbHalve (stageWidth k) e := by
  rw [msbStage, if_neg h]

theorem msbStage_seven (e : WorkRegs) : msbStage 7 e = msbFinal e := by
  rw [msbStage, if_pos rfl]

theorem lsbStage_of_ne {k : Fin 8} (h : k ≠ 7) (e : WorkRegs) : lsbStage k e = lsbHalve (stageWidth k) e := by
  rw [lsbStage, if_neg h]

theorem lsbStage_seven (e : WorkRegs) : lsbStage 7 e = lsbFinal e := by
  rw [lsbStage, if_pos rfl]

theorem msbAfter_zero (x : U256) : msbAfter x 0 = msbLoad x := rfl

theorem lsbAfter_zero (x : U256) : lsbAfter x 0 = lsbLoad x := rfl

/-- One more stage of the MSB engine. -/
theorem msbAfter_succ (x : U256) (k : Fin 8) : msbAfter x (k.val + 1) = msbStage k (msbAfter x k.val) := by
  rw [msbAfter, List.take_add_one, allStages_getElem, Option.toList_some, List.foldl_append, List.foldl_cons,
    List.foldl_nil]
  rfl

/-- One more stage of the LSB engine. -/
theorem lsbAfter_succ (x : U256) (k : Fin 8) : lsbAfter x (k.val + 1) = lsbStage k (lsbAfter x k.val) := by
  rw [lsbAfter, List.take_add_one, allStages_getElem, Option.toList_some, List.foldl_append, List.foldl_cons,
    List.foldl_nil]
  rfl

/-- The run of MSB is seven stages and the final step (R66). -/
theorem msbRun_eq_final (x : U256) : msbRun x = msbFinal (msbAfter x 7) := by
  have h : ∀ (e : WorkRegs), ∀ k ∈ ([0, 1, 2, 3, 4, 5, 6] : List (Fin 8)),
      msbHalve (stageWidth k) e = msbStage k e := by
    intro e k hk
    rw [msbStage_of_ne]
    rintro rfl
    exact absurd hk (by decide)
  have h7 : allStages.take 7 = [0, 1, 2, 3, 4, 5, 6] := rfl
  rw [msbRun, halvingWidths_eq_map, List.foldl_map, List.foldl_ext _ _ _ h, msbAfter, h7]

/-- The run of LSB is seven stages and the final step (R86). -/
theorem lsbRun_eq_final (x : U256) : lsbRun x = lsbFinal (lsbAfter x 7) := by
  have h : ∀ (e : WorkRegs), ∀ k ∈ ([0, 1, 2, 3, 4, 5, 6] : List (Fin 8)),
      lsbHalve (stageWidth k) e = lsbStage k e := by
    intro e k hk
    rw [lsbStage_of_ne]
    rintro rfl
    exact absurd hk (by decide)
  have h7 : allStages.take 7 = [0, 1, 2, 3, 4, 5, 6] := rfl
  rw [lsbRun, halvingWidths_eq_map, List.foldl_map, List.foldl_ext _ _ _ h, lsbAfter, h7]

/-- The run of MSB is the eight stages in order (R51). -/
theorem msbRun_eq_after (x : U256) : msbRun x = msbAfter x 8 := by
  rw [msbRun_eq_final, ← msbStage_seven]
  exact (msbAfter_succ x 7).symm

/-- The run of LSB is the eight stages in order (R51). -/
theorem lsbRun_eq_after (x : U256) : lsbRun x = lsbAfter x 8 := by
  rw [lsbRun_eq_final, ← lsbStage_seven]
  exact (lsbAfter_succ x 7).symm

/-- One more stage of either engine. -/
theorem engineAfter_succ (e : Engine) (x : U256) (k : Fin 8) :
    engineAfter e x (k.val + 1) = engineStage e k (engineAfter e x k.val) := by
  cases e
  · exact msbAfter_succ x k
  · exact lsbAfter_succ x k

/-- Finishing from stage k runs stage k first. -/
theorem finishStages_of_ne (e : Engine) {k : Fin 8} (h : k ≠ 7) (w : WorkRegs) :
    finishStages e k w = finishStages e (k + 1) (engineStage e k w) := by
  have hd : allStages.drop k.val = k :: allStages.drop (k + 1).val := by
    revert h
    revert k
    decide
  rw [finishStages, finishStages, hd, List.foldl_cons]

/-- Finishing from stage 7 runs stage 7. -/
theorem finishStages_seven (e : Engine) (w : WorkRegs) : finishStages e 7 w = engineStage e 7 w := rfl

/-- Finishing from the load runs all eight stages. -/
theorem finishStages_load (e : Engine) (x : U256) : finishStages e 0 (engineLoad e x) = engineAfter e x 8 := by
  cases e <;> simp only [engineLoad, engineAfter, msbAfter, lsbAfter] <;> rfl

/-- Wired decisions: bit 7 - k of the index is decision k (R131). -/
theorem wireDecisions_getLsbD (d : Fin 8 → Bool) (k : Fin 8) : (wireDecisions d).getLsbD (7 - k.val) = d k := by
  fin_cases k <;> simp only [wireDecisions, BitVec.getLsbD_append] <;> simp

end Sys2Proof.Machine
end

