-- ==== Sys2Proof/Laws/PerInstr.lean ====
section
/-! SUPPORT. Per-instruction statements about the syntax: the encoding of each command matches its row of
spec/opcode_table.json (match and mask). -/

namespace Sys2Proof

set_option exponentiation.threshold 258

/-- The mask that every row of spec/opcode_table.json gives: bits 257 and 256. -/
def tableMask : ReqWord :=
  0x30000000000000000000000000000000000000000000000000000000000000000#258

/-- The match of a command's row in spec/opcode_table.json. -/
def tableMatch : Instr → ReqWord
  | .msb _ => 0x00000000000000000000000000000000000000000000000000000000000000000#258
  | .lsb _ => 0x10000000000000000000000000000000000000000000000000000000000000000#258
  | .clz _ => 0x20000000000000000000000000000000000000000000000000000000000000000#258
  | .ctz _ => 0x30000000000000000000000000000000000000000000000000000000000000000#258

/-- A word whose upper two bits are `o` agrees with `o` under the table's mask. -/
theorem append_and_tableMask (o : OpSel) (x : U256) :
    (o ++ x) &&& tableMask = o ++ (0 : U256) := by
  have hm : tableMask = (0b11#2 ++ (0 : U256) : BitVec (2 + 256)) := by decide
  rw [hm]
  apply BitVec.eq_of_getLsbD_eq
  intro j hj
  simp only [BitVec.getLsbD_and, BitVec.getLsbD_append]
  by_cases h : j < 256
  · simp [h]
  · have : j - 256 = 0 ∨ j - 256 = 1 := by omega
    rcases this with h' | h' <;> simp [h, h']

/-- The encoding of a command is well formed as a number and its bits under the table's mask are its row's match. -/
def Laws.TableRow.Statement (i : Instr) : Prop :=
  encode i &&& tableMask = tableMatch i ∧ requestNumberWf (encode i).toNat = true

/-- The four matches of the table, as an operation code over a zero operand. -/
theorem tableMatch_eq (i : Instr) : tableMatch i = opCode i ++ (0 : U256) := by
  cases i <;> simp only [tableMatch, opCode] <;> decide

/-- Every word is a request number. -/
theorem requestNumberWf_toNat (w : ReqWord) : requestNumberWf w.toNat = true := by
  simp only [requestNumberWf, decide_eq_true_eq]
  have h : w.toNat < 2 ^ 2 * 2 ^ 256 := w.isLt
  exact Nat.div_lt_of_lt_mul (by rw [Nat.mul_comm]; exact h)

/-- The statement holds of every command, through its operation code. -/
theorem tableRow (i : Instr) : Laws.TableRow.Statement i :=
  ⟨(append_and_tableMask (opCode i) i.operand).trans (tableMatch_eq i).symm, requestNumberWf_toNat _⟩

theorem Laws.TableRow.msb (x : U256) : Laws.TableRow.Statement (.msb x) :=
  tableRow (.msb x)

theorem Laws.TableRow.lsb (x : U256) : Laws.TableRow.Statement (.lsb x) :=
  tableRow (.lsb x)

theorem Laws.TableRow.clz (x : U256) : Laws.TableRow.Statement (.clz x) :=
  tableRow (.clz x)

theorem Laws.TableRow.ctz (x : U256) : Laws.TableRow.Statement (.ctz x) :=
  tableRow (.ctz x)

end Sys2Proof
end

