-- ==== Sys2Proof/Laws/State.lean ====
section
/-! SUPPORT. One lemma per field and named operation on State, so that no later proof unfolds a record update. -/

namespace Sys2Proof.Machine

@[simp] theorem setEngineRegs_resetIn (e : Engine) (w : WorkRegs) (s : State) : (setEngineRegs e w s).resetIn = s.resetIn := by cases e <;> rfl
@[simp] theorem setEngineRegs_request (e : Engine) (w : WorkRegs) (s : State) : (setEngineRegs e w s).request = s.request := by cases e <;> rfl
@[simp] theorem setEngineRegs_running (e : Engine) (w : WorkRegs) (s : State) : (setEngineRegs e w s).running = s.running := by cases e <;> rfl
@[simp] theorem setEngineRegs_response (e : Engine) (w : WorkRegs) (s : State) : (setEngineRegs e w s).response = s.response := by cases e <;> rfl
@[simp] theorem setEngineRegs_record (e : Engine) (w : WorkRegs) (s : State) : (setEngineRegs e w s).record = s.record := by cases e <;> rfl
@[simp] theorem setEngineRegs_faultMark (e : Engine) (w : WorkRegs) (s : State) : (setEngineRegs e w s).faultMark = s.faultMark := by cases e <;> rfl
@[simp] theorem setEngineRegs_draws (e : Engine) (w : WorkRegs) (s : State) : (setEngineRegs e w s).draws = s.draws := by cases e <;> rfl
@[simp] theorem setEngineRegs_msbLzc_msb (w : WorkRegs) (s : State) : (setEngineRegs .msbLzc w s).msb = w := rfl
@[simp] theorem setEngineRegs_msbLzc_lsb (w : WorkRegs) (s : State) : (setEngineRegs .msbLzc w s).lsb = s.lsb := rfl
@[simp] theorem setEngineRegs_lsbTz_msb (w : WorkRegs) (s : State) : (setEngineRegs .lsbTz w s).msb = s.msb := rfl
@[simp] theorem setEngineRegs_lsbTz_lsb (w : WorkRegs) (s : State) : (setEngineRegs .lsbTz w s).lsb = w := rfl
@[simp] theorem engineRegs_setEngineRegs (e : Engine) (w : WorkRegs) (s : State) :
    engineRegs e (setEngineRegs e w s) = w := by cases e <;> rfl

@[simp] theorem giveResponse_resetIn (p : Response) (s : State) : (giveResponse p s).resetIn = s.resetIn := rfl
@[simp] theorem giveResponse_request (p : Response) (s : State) : (giveResponse p s).request = s.request := rfl
@[simp] theorem giveResponse_running (p : Response) (s : State) : (giveResponse p s).running = none := rfl
@[simp] theorem giveResponse_msb (p : Response) (s : State) : (giveResponse p s).msb = s.msb := rfl
@[simp] theorem giveResponse_lsb (p : Response) (s : State) : (giveResponse p s).lsb = s.lsb := rfl
@[simp] theorem giveResponse_response (p : Response) (s : State) : (giveResponse p s).response = some p := rfl
@[simp] theorem giveResponse_record (p : Response) (s : State) : (giveResponse p s).record = s.record ++ [p] := rfl
@[simp] theorem giveResponse_faultMark (p : Response) (s : State) : (giveResponse p s).faultMark = s.faultMark := rfl
@[simp] theorem giveResponse_draws (p : Response) (s : State) : (giveResponse p s).draws = s.draws + 1 := rfl

@[simp] theorem giveResult_resetIn (e : Engine) (r : Index) (s : State) : (giveResult e r s).resetIn = s.resetIn := by cases e <;> rfl
@[simp] theorem giveResult_request (e : Engine) (r : Index) (s : State) : (giveResult e r s).request = s.request := by cases e <;> rfl
@[simp] theorem giveResult_running (e : Engine) (r : Index) (s : State) : (giveResult e r s).running = none := by cases e <;> rfl
@[simp] theorem giveResult_response (e : Engine) (r : Index) (s : State) : (giveResult e r s).response = some (.ok r) := by cases e <;> rfl
@[simp] theorem giveResult_record (e : Engine) (r : Index) (s : State) : (giveResult e r s).record = s.record ++ [.ok r] := by cases e <;> rfl
@[simp] theorem giveResult_faultMark (e : Engine) (r : Index) (s : State) : (giveResult e r s).faultMark = s.faultMark := by cases e <;> rfl
@[simp] theorem giveResult_draws (e : Engine) (r : Index) (s : State) : (giveResult e r s).draws = s.draws + 1 := by cases e <;> rfl
@[simp] theorem giveResult_msbLzc_lsb (r : Index) (s : State) : (giveResult .msbLzc r s).lsb = s.lsb := rfl
@[simp] theorem giveResult_lsbTz_msb (r : Index) (s : State) : (giveResult .lsbTz r s).msb = s.msb := rfl

@[simp] theorem raiseDomainError_resetIn (s : State) : (raiseDomainError s).resetIn = s.resetIn := rfl
@[simp] theorem raiseDomainError_request (s : State) : (raiseDomainError s).request = s.request := rfl
@[simp] theorem raiseDomainError_running (s : State) : (raiseDomainError s).running = none := rfl
@[simp] theorem raiseDomainError_msb (s : State) : (raiseDomainError s).msb = s.msb := rfl
@[simp] theorem raiseDomainError_lsb (s : State) : (raiseDomainError s).lsb = s.lsb := rfl
@[simp] theorem raiseDomainError_response (s : State) : (raiseDomainError s).response = some .domainError := rfl
@[simp] theorem raiseDomainError_record (s : State) : (raiseDomainError s).record = s.record ++ [.domainError] := rfl
@[simp] theorem raiseDomainError_faultMark (s : State) : (raiseDomainError s).faultMark = true := rfl
@[simp] theorem raiseDomainError_draws (s : State) : (raiseDomainError s).draws = s.draws + 1 := rfl

@[simp] theorem takeRequest_resetIn (s : State) : (takeRequest s).resetIn = s.resetIn := rfl
@[simp] theorem takeRequest_request (s : State) : (takeRequest s).request = none := rfl
@[simp] theorem takeRequest_running (s : State) : (takeRequest s).running = s.running := rfl
@[simp] theorem takeRequest_msb (s : State) : (takeRequest s).msb = s.msb := rfl
@[simp] theorem takeRequest_lsb (s : State) : (takeRequest s).lsb = s.lsb := rfl
@[simp] theorem takeRequest_response (s : State) : (takeRequest s).response = none := rfl
@[simp] theorem takeRequest_record (s : State) : (takeRequest s).record = s.record := rfl
@[simp] theorem takeRequest_faultMark (s : State) : (takeRequest s).faultMark = s.faultMark := rfl
@[simp] theorem takeRequest_draws (s : State) : (takeRequest s).draws = s.draws := rfl

@[simp] theorem holdReset_resetIn (s : State) : (holdReset s).resetIn = s.resetIn := rfl
@[simp] theorem holdReset_request (s : State) : (holdReset s).request = none := rfl
@[simp] theorem holdReset_running (s : State) : (holdReset s).running = none := rfl
@[simp] theorem holdReset_msb (s : State) : (holdReset s).msb = idleRegs s.draws := rfl
@[simp] theorem holdReset_lsb (s : State) : (holdReset s).lsb = idleRegs (s.draws + 1) := rfl
@[simp] theorem holdReset_response (s : State) : (holdReset s).response = none := rfl
@[simp] theorem holdReset_record (s : State) : (holdReset s).record = s.record := rfl
@[simp] theorem holdReset_faultMark (s : State) : (holdReset s).faultMark = s.faultMark := rfl
@[simp] theorem holdReset_draws (s : State) : (holdReset s).draws = s.draws + 2 := rfl

@[simp] theorem presentRequest_resetIn (w : ReqWord) (s : State) : (presentRequest w s).resetIn = s.resetIn := rfl
@[simp] theorem presentRequest_request (w : ReqWord) (s : State) : (presentRequest w s).request = some w := rfl
@[simp] theorem presentRequest_running (w : ReqWord) (s : State) : (presentRequest w s).running = s.running := rfl
@[simp] theorem presentRequest_msb (w : ReqWord) (s : State) : (presentRequest w s).msb = s.msb := rfl
@[simp] theorem presentRequest_lsb (w : ReqWord) (s : State) : (presentRequest w s).lsb = s.lsb := rfl
@[simp] theorem presentRequest_response (w : ReqWord) (s : State) : (presentRequest w s).response = s.response := rfl
@[simp] theorem presentRequest_record (w : ReqWord) (s : State) : (presentRequest w s).record = s.record := rfl
@[simp] theorem presentRequest_faultMark (w : ReqWord) (s : State) : (presentRequest w s).faultMark = s.faultMark := rfl
@[simp] theorem presentRequest_draws (w : ReqWord) (s : State) : (presentRequest w s).draws = s.draws := rfl

@[simp] theorem assertReset_resetIn (s : State) : (assertReset s).resetIn = true := rfl
@[simp] theorem assertReset_request (s : State) : (assertReset s).request = none := rfl
@[simp] theorem assertReset_running (s : State) : (assertReset s).running = none := rfl
@[simp] theorem assertReset_msb (s : State) : (assertReset s).msb = idleRegs s.draws := rfl
@[simp] theorem assertReset_lsb (s : State) : (assertReset s).lsb = idleRegs (s.draws + 1) := rfl
@[simp] theorem assertReset_response (s : State) : (assertReset s).response = none := rfl
@[simp] theorem assertReset_record (s : State) : (assertReset s).record = s.record := rfl
@[simp] theorem assertReset_faultMark (s : State) : (assertReset s).faultMark = s.faultMark := rfl
@[simp] theorem assertReset_draws (s : State) : (assertReset s).draws = s.draws + 2 := rfl

/-- What releasing reset does: where it is asserted, the block is idle after it. -/
theorem releaseReset_of_asserted {s : State} (h : s.resetIn = true) :
    releaseReset s = { holdReset s with resetIn := false } := by
  rw [releaseReset, if_pos h]

/-- Releasing reset where it is not asserted changes nothing. -/
theorem releaseReset_of_released {s : State} (h : s.resetIn = false) : releaseReset s = s := by
  simp [releaseReset, h]

@[simp] theorem releaseReset_resetIn (s : State) : (releaseReset s).resetIn = false := by
  cases h : s.resetIn <;> simp [releaseReset, h]
/-- Reset asserted and released leaves no request behind: the caller reissues (R171). -/
@[simp] theorem releaseReset_assertReset_request (s : State) : (releaseReset (assertReset s)).request = none := rfl
@[simp] theorem releaseReset_assertReset_running (s : State) : (releaseReset (assertReset s)).running = none := rfl
@[simp] theorem releaseReset_assertReset_response (s : State) : (releaseReset (assertReset s)).response = none := rfl
@[simp] theorem releaseReset_record (s : State) : (releaseReset s).record = s.record := by
  cases h : s.resetIn <;> simp [releaseReset, h]
@[simp] theorem releaseReset_faultMark (s : State) : (releaseReset s).faultMark = s.faultMark := by
  cases h : s.resetIn <;> simp [releaseReset, h]

/-- Reset leaves the block idle, with nothing presented and nothing recorded. -/
@[simp] theorem reset_request : State.reset.request = none := rfl
@[simp] theorem reset_response : State.reset.response = none := rfl
@[simp] theorem reset_running : State.reset.running = none := rfl
@[simp] theorem reset_resetIn : State.reset.resetIn = false := rfl
@[simp] theorem reset_record : State.reset.record = [] := rfl
@[simp] theorem reset_faultMark : State.reset.faultMark = false := rfl

end Sys2Proof.Machine
end

