-- ==== Sys2Proof/Laws/Step.lean ====
section
/-! SUPPORT. What a command and a step can do, said once. -/

namespace Sys2Proof.Machine

/-- Answering on a zero operand raises the domain error (R155). -/
theorem answer_zero (e : Engine) (r : Index) (s : State) : answer e 0 r s = raiseDomainError s := by
  simp [answer]

/-- Answering on a nonzero operand gives the result (R163). -/
theorem answer_nonzero (e : Engine) {x : U256} (r : Index) (s : State) (h : x ≠ 0) :
    answer e x r s = giveResult e r s := by
  rw [answer, if_neg (by rwa [isDomainError_iff])]

/-- The accumulator a command's engine ends with, in the command's view. -/
def resultOf (i : Instr) : Index :=
  match i with
  | .msb x => (msbRun x).r
  | .lsb x => (lsbRun x).r
  | .clz x => 255 - (msbRun x).r
  | .ctz x => (lsbRun x).r

/-- Every command answers a next state: the one exception or its result (R161, R163). -/
theorem exec_eq (i : Instr) (s : State) :
    exec i s = .next (answer (engineOf (commandOf i)) i.operand (resultOf i) s) := by
  cases i <;> rfl

/-- On a zero operand a command raises the domain error (R155). -/
theorem exec_zero {i : Instr} (s : State) (h : i.operand = 0) : exec i s = .next (raiseDomainError s) := by
  rw [exec_eq, h, answer_zero]

/-- On a nonzero operand a command gives its result (R161). -/
theorem exec_nonzero {i : Instr} (s : State) (h : i.operand ≠ 0) :
    exec i s = .next (giveResult (engineOf (commandOf i)) (resultOf i) s) := by
  rw [exec_eq, answer_nonzero _ _ _ h]

/-- While reset is asserted a step holds reset (R180). -/
theorem step_in_reset {s : State} (h : s.resetIn = true) : step s = .next (holdReset s) := by
  simp [step, h]

/-- An operation in progress is completed (R162). -/
theorem step_running {s : State} {op : Running} (h : s.resetIn = false) (hr : s.running = some op) :
    step s = .next (finishOperation op s) := by
  simp [step, h, hr]

/-- With nothing presented the block stays idle. -/
theorem step_idle {s : State} (h : s.resetIn = false) (hr : s.running = none) (hq : s.request = none) :
    step s = .next s := by
  simp [step, h, hr, hq]

/-- A request presented to a ready block is taken, decoded and executed (R168). -/
theorem step_request {s : State} {w : ReqWord} (h : s.resetIn = false) (hr : s.running = none)
    (hq : s.request = some w) : step s = exec (decode w) (takeRequest s) := by
  simp [step, h, hr, hq]

/-- Everything a step can do: hold reset, complete an operation, stay idle, raise the domain error, or give a
result. -/
theorem step_cases {s t : State} (h : step s = .next t) :
    (s.resetIn = true ∧ t = holdReset s) ∨
    (∃ op, s.resetIn = false ∧ s.running = some op ∧ t = finishOperation op s) ∨
    (s.resetIn = false ∧ s.running = none ∧ s.request = none ∧ t = s) ∨
    (∃ w, s.resetIn = false ∧ s.running = none ∧ s.request = some w ∧ (decode w).operand = 0 ∧
      t = raiseDomainError (takeRequest s)) ∨
    (∃ w, s.resetIn = false ∧ s.running = none ∧ s.request = some w ∧ (decode w).operand ≠ 0 ∧
      t = giveResult (engineOf (commandOf (decode w))) (resultOf (decode w)) (takeRequest s)) := by
  cases hres : s.resetIn with
  | true =>
    rw [step_in_reset hres] at h
    injection h with h
    exact .inl ⟨rfl, h.symm⟩
  | false =>
    cases hrun : s.running with
    | some op =>
      rw [step_running hres hrun] at h
      injection h with h
      exact .inr (.inl ⟨op, rfl, rfl, h.symm⟩)
    | none =>
      cases hq : s.request with
      | none =>
        rw [step_idle hres hrun hq] at h
        injection h with h
        exact .inr (.inr (.inl ⟨rfl, rfl, rfl, h.symm⟩))
      | some w =>
        rw [step_request hres hrun hq] at h
        by_cases hz : (decode w).operand = 0
        · rw [exec_zero _ hz] at h
          injection h with h
          exact .inr (.inr (.inr (.inl ⟨w, rfl, rfl, rfl, hz, h.symm⟩)))
        · rw [exec_nonzero _ hz] at h
          injection h with h
          exact .inr (.inr (.inr (.inr ⟨w, rfl, rfl, rfl, hz, h.symm⟩)))

end Sys2Proof.Machine
end

