-- ==== Sys2Proof/Laws/Stages.lean ====
section
/-! SUPPORT. What a tick of the stage-level unfolding can do, said once. -/

namespace Sys2Proof.Machine

/-- While reset is asserted a tick holds reset (R180). -/
theorem tick_in_reset {s : State} (h : s.resetIn = true) : tick s = holdReset s := by
  simp [tick, h]

/-- An operation in progress runs its next stage (R16). -/
theorem tick_running {s : State} {op : Running} (h : s.resetIn = false) (hr : s.running = some op) :
    tick s = stageTick op s := by
  simp [tick, h, hr]

/-- With nothing presented the block stays idle. -/
theorem tick_idle {s : State} (h : s.resetIn = false) (hr : s.running = none) (hq : s.request = none) :
    tick s = s := by
  simp [tick, h, hr, hq]

/-- A request presented is taken and started (R156, R181). -/
theorem tick_request {s : State} {w : ReqWord} (h : s.resetIn = false) (hr : s.running = none)
    (hq : s.request = some w) :
    tick s = startOperation (commandOf (decode w)) (decode w).operand (takeRequest s) := by
  simp [tick, h, hr, hq]

/-- An operation on a zero operand ends at its start (R156). -/
theorem startOperation_zero (c : Command) (s : State) : startOperation c 0 s = raiseDomainError s := by
  simp [startOperation]

/-- An operation on a nonzero operand loads its engine (R181). -/
theorem startOperation_nonzero (c : Command) {x : U256} (s : State) (h : x ≠ 0) :
    startOperation c x s =
      { setEngineRegs (engineOf c) (engineLoad (engineOf c) x) s with running := some ⟨c, 0⟩ } := by
  rw [startOperation, if_neg (by rwa [isDomainError_iff])]

/-- Stage 7 ends the operation. -/
theorem stageTick_seven {op : Running} (s : State) (h : op.stage = 7) : stageTick op s = finishOperation op s := by
  rw [stageTick, if_pos h, finishOperation, h, finishStages_seven]

/-- A stage before 7 leaves the operation in progress at the next stage. -/
theorem stageTick_of_ne {op : Running} (s : State) (h : op.stage ≠ 7) :
    stageTick op s =
      { setEngineRegs (engineOf op.cmd)
          (engineStage (engineOf op.cmd) op.stage (engineRegs (engineOf op.cmd) s)) s with
        running := some ⟨op.cmd, op.stage + 1⟩ } := by
  rw [stageTick, if_neg h]

/-- The working registers do not depend on the operation in progress. -/
@[simp] theorem engineRegs_with_running (e : Engine) (s : State) (op : Option Running) :
    engineRegs e { s with running := op } = engineRegs e s := by
  cases e <;> rfl

/-- Ending an operation forgets its working registers and that it was in progress (R13, R14). -/
@[simp] theorem giveResult_with_running (e : Engine) (w : WorkRegs) (r : Index) (s : State) (op : Option Running) :
    giveResult e r { setEngineRegs e w s with running := op } = giveResult e r s := by
  cases e <;> rfl

end Sys2Proof.Machine
end

