-- ==== Sys2Proof/Laws/System.lean ====
section
/-! SUPPORT. One request of a run, and one event of a schedule. -/

namespace Sys2Proof.Machine

/-- A ready instance serves a request by executing its command; what stood as the request or response is gone. -/
theorem serve_of_ready (w : ReqWord) {s : State} (h : s.resetIn = false) (hr : s.running = none) :
    serve w s = exec (decode w) { s with request := none, response := none } := by
  rw [serve, step_request (s := presentRequest w s) (w := w) h hr rfl]
  rfl

/-- A run goes on from the state its first request leaves. -/
theorem serveAll_cons {w : ReqWord} {ws : List ReqWord} {s t : State} (h : serve w s = .next t) :
    serveAll (w :: ws) s = serveAll ws t := by
  rw [serveAll, h]

/-- An event of an instance that exists replaces that instance alone (R169). -/
theorem systemServe_eq {k : Nat} {w : ReqWord} {sys : System} {s t : State} (hs : sys[k]? = some s)
    (h : serve w s = .next t) : systemServe k w sys = .next (sys.set k t) := by
  rw [systemServe, hs]
  simp only
  rw [h]

end Sys2Proof.Machine
end

