-- ==== Sys2Proof/Tests/Slice0.lean ====
section
/-! SUPPORT. The model's own tests: form checks, request words written out from R45 and R47, one-step vectors, stage
traces and primitives from spec/95_test_vectors.md (its V, T, S and W entries), and a witness for the hypotheses of
every statement that has some. Expected values are the spec's, never the model's. -/

namespace Sys2Proof.Tests

open Sys2Proof.Machine

/-- The responses recorded after an outcome. -/
def recorded : Host.Outcome State Fault Refusal → List Response
  | .next t => t.record
  | .fault _ => []
  | .refused _ => []

/-- The responses recorded after one step on a request word, right after reset. -/
def answered (w : Nat) : List Response :=
  recorded (step (State.reset.withFetchWord 258 w))

/-- The state right after reset with a request presented. -/
def presented (w : ReqWord) : State :=
  presentRequest w State.reset

/-- A state with the MSB engine in the middle of an operation on 1234567890: stage 4 runs next (trace T1). -/
def midOperation : State :=
  { State.reset with running := some ⟨.msb, 4⟩, msb := ⟨0x4996, 16⟩ }

/-! ### Form -/

theorem test_wellFormed_every_command :
    (Instr.msb 0).wellFormed = true ∧ (Instr.lsb 0).wellFormed = true ∧
    (Instr.clz 0).wellFormed = true ∧ (Instr.ctz 0).wellFormed = true := by decide

theorem test_requestNumber_boundary :
    requestNumberWf 0x3FFFFFFFFFFFFFFFFFFFFFFFFFFFFFFFFFFFFFFFFFFFFFFFFFFFFFFFFFFFFFFFF = true ∧
    requestNumberWf 0x40000000000000000000000000000000000000000000000000000000000000000 = false := by decide

theorem test_requestNumber_rejected_by_name :
    requestWord 0x40000000000000000000000000000000000000000000000000000000000000000 = .error .widerThanRequest ∧
    decodeTableWord 258 0x40000000000000000000000000000000000000000000000000000000000000000 = none := by
  exact ⟨rfl, by decide⟩

theorem test_precondition_refuses_zero :
    (Instr.clz 0).precondition = false ∧ (Instr.clz 1).precondition = true := by decide

/-! ### Request words, `{op, x}` written out (R45, R47) -/

theorem test_decode_msb_word :
    decode (0b00#2 ++ 0x499602D2#256) = .msb 1234567890 ∧
    decodeTableWord 258 0x000000000000000000000000000000000000000000000000000000000499602D2 = some (.msb 1234567890) := by
  decide

theorem test_decode_lsb_word :
    decode (0b01#2 ++ 0x499602D2#256) = .lsb 1234567890 ∧
    decodeTableWord 258 0x100000000000000000000000000000000000000000000000000000000499602D2 = some (.lsb 1234567890) := by
  decide

theorem test_decode_clz_word :
    decode (0b10#2 ++ 0x499602D2#256) = .clz 1234567890 ∧
    decodeTableWord 258 0x200000000000000000000000000000000000000000000000000000000499602D2 = some (.clz 1234567890) := by
  decide

theorem test_decode_ctz_word :
    decode (0b11#2 ++ 0x8000000000000000000000000000000000000000000000000000000000000000#256) =
      .ctz (BitVec.twoPow 256 255) ∧
    decodeTableWord 258 0x38000000000000000000000000000000000000000000000000000000000000000 =
      some (.ctz (BitVec.twoPow 256 255)) := by
  decide

/-! ### One step per command -/

/-- V84 (S3, where the spec corrects 199 to 200) and V86. -/
theorem test_msb_step :
    answered 0x0000000000000010000000000ACF2596B26721108BAD53604FFD0775A87A767A9 = [.ok 200] ∧
    answered 0 = [.domainError] := by decide

/-- V11 and W3: AND before compare. -/
theorem test_lsb_step :
    answered 0x1000000000000000000000000000000000000000000000000000000000000A000 = [.ok 13] ∧
    answered 0x10000000000000000000000000000000000000000000000000000000000000002 = [.ok 1] := by decide

/-- V82 and V42. -/
theorem test_clz_step :
    answered 0x200000000000000000000000000000000000000000000000000000000499602D2 = [.ok 225] ∧
    answered 0x20000000000000000000000000000000000000000000000000000000000000000 = [.domainError] := by decide

/-- V85 and V42. -/
theorem test_ctz_step :
    answered 0x38000000000000000000000000000000000000000000000000000000000000000 = [.ok 255] ∧
    answered 0x30000000000000000000000000000000000000000000000000000000000000000 = [.domainError] := by decide

/-- The hazards W4 (order), W5 (unsigned), W6 and W7 (final test, strictness) on the MSB engine. -/
theorem test_msb_hazards :
    (msbRun 16).r = 4 ∧ (msbRun (BitVec.twoPow 256 255)).r = 255 ∧ (msbRun 1).r = 0 ∧ (msbRun 256).r = 8 := by decide

/-- The hazards W3b and W4c on the LSB engine, and V18. -/
theorem test_lsb_hazards :
    (lsbRun 40960).r = 13 ∧ (lsbRun 16).r = 4 ∧
    (lsbRun 0x1000000000000000000000000000000010000000000000000#256).r = 64 := by decide

/-! ### Stage traces (T7) and the encoder (section 3.3) -/

theorem test_msb_trace_T7 :
    ([0, 1, 2, 3, 4, 5, 6, 7, 8].map fun n => (msbAfter 0x60000000000000000000000000 n)) =
      [⟨0x60000000000000000000000000, 0⟩, ⟨0x60000000000000000000000000, 0⟩, ⟨0x6000000000, 64⟩, ⟨0x60, 96⟩,
        ⟨0x60, 96⟩, ⟨0x60, 96⟩, ⟨0x6, 100⟩, ⟨0x1, 102⟩, ⟨0x1, 102⟩] := by decide

theorem test_lsb_trace_T7 :
    ([0, 1, 2, 3, 4, 5, 6, 7, 8].map fun n => (lsbAfter 0x60000000000000000000000000 n)) =
      [⟨0x60000000000000000000000000, 255⟩, ⟨0x60000000000000000000000000, 127⟩, ⟨0x6000000000, 127⟩, ⟨0x60, 127⟩,
        ⟨0x60, 111⟩, ⟨0x60, 103⟩, ⟨0x6, 103⟩, ⟨0x6, 101⟩, ⟨0x6, 101⟩] := by decide

theorem test_encoder_S4 :
    encodeMsb (msbDecision 0x3837DA0FA3D0D0E1FD) = 0b01000101 ∧
    encodeClz (msbDecision 0x3837DA0FA3D0D0E1FD) = 186 ∧
    encodeLsb (lsbDecision 40960) = 0b00001101 := by decide

/-! ### Primitives (V50 to V74) -/

/-- The operand `a` of spec/95_test_vectors.md section 3.4. -/
def operandA : U256 :=
  0x0123456789ABCDEFFEDCBA98765432100F1E2D3C4B5A69788796A5B4C3D2E1F0#256

theorem test_shr_vectors :
    shrU operandA 1 = 0x0091A2B3C4D5E6F7FF6E5D4C3B2A1908078F169E25AD34BC43CB52DA61E970F8#256 ∧
    shrU maxU 255 = oneU ∧ shrU (BitVec.twoPow 256 255) 128 = BitVec.twoPow 256 127 ∧
    shrNat operandA 256 = .error .shiftAmountUndefined := by
  exact ⟨by decide, by decide, by decide, rfl⟩

theorem test_shr_limb_vectors :
    shrLimbsBelow64 63 (toLimbs operandA) = ⟨0x1E3C5A7896B4D2F1, 0xFDB97530ECA86420, 0x02468ACF13579BDF, 0x0⟩ ∧
    shrLimbs64 (toLimbs operandA) = ⟨0x0F1E2D3C4B5A6978, 0xFEDCBA9876543210, 0x0123456789ABCDEF, 0x0⟩ ∧
    shrLimbs128 (toLimbs operandA) = ⟨0xFEDCBA9876543210, 0x0123456789ABCDEF, 0x0, 0x0⟩ := by decide

theorem test_and_and_compare_vectors :
    andU operandA (lowMask .w128) = 0x0F1E2D3C4B5A69788796A5B4C3D2E1F0#256 ∧
    geU (BitVec.twoPow 256 255) (BitVec.twoPow 256 128) = true ∧ geU (lowMask .w128) (threshold .w128) = false ∧
    gtU operandA operandA = false ∧ geLimbs ⟨0, 0, 0, 1⟩ ⟨0xFFFFFFFFFFFFFFFF, 0xFFFFFFFFFFFFFFFF, 0xFFFFFFFFFFFFFFFF, 0⟩ = true := by
  decide

/-- R189: at index 255 only the guard makes the bound true; at index 0 nothing is below. -/
theorem test_contract_edges :
    msbBound maxU 255 ∧ gtU (powU 256) maxU = false ∧ ¬ msbBound maxU 254 ∧ belowU 0 = 0 ∧ lsbContract maxU 0 := by
  decide

theorem test_literals :
    commandLine ['C', 'L', 'Z', ' ', '0', 'x', '4', '9', '9', '6', '0', '2', 'D', '2', ' ', ';', ' ', 'T', '1'] =
      .ok (.clz 1234567890) ∧
    literal ['0', '0', '1', '2'] = .ok 12 ∧ literal ['1', '2', 'a'] = .error .malformedLiteral ∧
    literal ['0', 'x'] = .error .malformedLiteral ∧ literal [] = .error .malformedLiteral ∧
    outcomeText (.ok 225) = ['-', '>', ' ', 'o', 'k', ' ', '2', '2', '5'] := by
  refine ⟨?_, ?_, ?_, ?_, ?_, ?_⟩ <;> rfl

/-- Response words V82 and V86: a result of zero and the domain error are different words. -/
theorem test_response_words :
    responseWordOf 0 (.ok 225) = 0b011100001#9 ∧ responseWordOf 0 (.ok 0) = 0b000000000#9 ∧
    (responseWordOf 0 .domainError).getLsbD 8 = true ∧ readResponseWord 0b100000111#9 = .domainError := by decide

/-! ### Reset and the operation in progress -/

/-- R180, with reset asserted and released at once: the dropped operation never answers. -/
theorem test_reset_drops_operation :
    (tick (assertReset midOperation)).running = none ∧ (tick (assertReset midOperation)).record = [] ∧
    recorded (step (releaseReset (assertReset midOperation))) = [] := by decide

/-- R171, U9: a request not yet taken when reset is asserted gets no response, and its reissue is not refused. -/
theorem test_reset_reissue :
    recorded (step (releaseReset (assertReset (presented (encode (.lsb 0)))))) = [] ∧
    ((callerSend (encode (.lsb 0)) (releaseReset (assertReset (presented (encode (.lsb 0)))))).map
      fun t => recorded (step t)) = .ok [.domainError] := by exact ⟨by decide, rfl⟩

/-- R180: "no response is pending" after release; a release where reset is not asserted drops nothing. -/
theorem test_release_leaves_idle :
    (releaseReset (assertReset { midOperation with response := some (.ok 30) })).response = none ∧
    (releaseReset midOperation).running = some ⟨.msb, 4⟩ := by decide

/-- The failure of program P3 on one of two instances: the run's mark is set, the other instance's own is not (log 24). -/
theorem test_system_fault_mark :
    systemFaultMark [raiseDomainError State.reset, State.reset] = true ∧ systemFaultMark [State.reset] = false ∧
    State.reset.faultMark = false := by decide

theorem test_operation_in_progress_completes :
    recorded (step midOperation) = [.ok 30] ∧ (ticks 4 midOperation).record = [.ok 30] := by decide

/-! ### Witnesses: the hypotheses of the statements can be met -/

theorem witness_DecodeAndEncodeAreInverse :
    (Instr.msb 0).wellFormed = true ∧ (Instr.ctz maxU).wellFormed = true := by decide

theorem witness_EachWordHasOneDecoding :
    opField (encode (.msb 0)) = 0b00#2 ∧ opField (encode (.lsb 0)) = 0b01#2 ∧
    opField (encode (.clz 0)) = 0b10#2 ∧ opField (encode (.ctz 0)) = 0b11#2 := by decide

set_option exponentiation.threshold 258 in
theorem witness_NumberedWordsDecodeOrAreRejected :
    0x3FFFFFFFFFFFFFFFFFFFFFFFFFFFFFFFFFFFFFFFFFFFFFFFFFFFFFFFFFFFFFFFF = (encode (.ctz (BitVec.allOnes 256))).toNat ∧
    ∀ i : Instr, 0x40000000000000000000000000000000000000000000000000000000000000000 ≠ (encode i).toNat := by
  refine ⟨by decide, fun i h => ?_⟩
  have hlt : (encode i).toNat < 2 ^ 2 * 2 ^ 256 := (encode i).isLt
  omega

/-- A nonzero and a zero operand, at the ends of the range (every statement with `x ≠ 0` or `x = 0`). -/
theorem witness_operands :
    (1 : U256) ≠ 0 ∧ maxU ≠ 0 ∧ (Instr.msb 1).operand ≠ 0 ∧ (Instr.ctz maxU).operand ≠ 0 ∧
    (Instr.lsb 0).operand = 0 ∧ (Instr.clz 0).operand = 0 := by decide

/-- Every clause of MsbStageEffect, at the threshold of its stage and just below it. -/
theorem witness_MsbStageEffect :
    ((0 : Fin 8) < 7 ∧ 2 ^ 2 ^ 7 ≤ (threshold .w128).toNat ∧ (lowMask .w128).toNat < 2 ^ 2 ^ 7) ∧
    ((6 : Fin 8) < 7 ∧ 2 ^ 2 ^ 1 ≤ (4 : U256).toNat ∧ (3 : U256).toNat < 2 ^ 2 ^ 1) ∧
    2 ≤ (2 : U256).toNat ∧ (1 : U256).toNat < 2 := by decide

/-- Every clause of LsbStageEffect, with the low bits just nonzero and all zero. -/
theorem witness_LsbStageEffect :
    ((0 : Fin 8) < 7 ∧ (BitVec.twoPow 256 127).toNat % 2 ^ 2 ^ 7 ≠ 0 ∧ (BitVec.twoPow 256 128).toNat % 2 ^ 2 ^ 7 = 0) ∧
    ((6 : Fin 8) < 7 ∧ (2 : U256).toNat % 2 ^ 2 ^ 1 ≠ 0 ∧ (4 : U256).toNat % 2 ^ 2 ^ 1 = 0) ∧
    (1 : U256).getLsbD 0 = true ∧ (2 : U256).getLsbD 0 = false := by decide

theorem witness_stage_invariants : (1 : U256) ≠ 0 ∧ 0 < 7 ∧ 6 < 7 := by decide

theorem witness_bit_positions : 0 < 256 ∧ 255 < 256 := by decide

/-- The clauses of MsbFollowsTheAlgorithm, LsbFollowsTheAlgorithm, ClzAnswersTheComplementedIndex and
CtzAnswersTheLsbIndex that have a premise of their own. -/
theorem witness_zero_counts :
    2 ^ 255 ≤ (BitVec.twoPow 256 255).toNat ∧ ¬ 2 ^ 255 ≤ (shrU maxU 1).toNat ∧ (1 : U256).getLsbD 0 = true := by decide

/-- ShiftLowersBothIndices: an operand with LSB 101 and the shift amounts 1 and 101. -/
theorem witness_ShiftLowersBothIndices :
    (0x60000000000000000000000000 : U256) ≠ 0 ∧ 0 < (1 : Fin 256).val ∧
    (101 : Fin 256).val ≤ (lsbRun 0x60000000000000000000000000).r.toNat := by decide

theorem witness_ShiftIsLogicalAndBounded : 0 < 256 ∧ 255 < 256 ∧ 256 ≤ 256 ∧ 0 + 255 ≤ 255 ∧ ¬ 1 + 255 ≤ 255 := by decide

/-- Accepted and refused literals, at the edges of their ranges. -/
theorem witness_literals :
    decimalLiteral ['0'] = .ok 0 ∧ hexLiteral (List.replicate 64 'F') = .ok (BitVec.allOnes 256) ∧
    (∀ x : U256, decimalLiteral [] ≠ .ok x) ∧ (∀ x : U256, literal ('0' :: 'x' :: List.replicate 65 '0') ≠ .ok x) := by
  refine ⟨rfl, rfl, fun x h => ?_, fun x h => ?_⟩
  · exact absurd h (by simp [decimalLiteral])
  · have : literal ('0' :: 'x' :: List.replicate 65 '0') = .error .malformedLiteral := rfl
    rw [this] at h
    cases h

/-- IndexArithmeticNeverWraps: decisions that are true, at the first and the last stage. -/
theorem witness_IndexArithmeticNeverWraps :
    msbDecision maxU 0 = true ∧ msbDecision maxU 7 = true ∧ lsbDecision 1 0 = true ∧ lsbDecision 1 7 = true := by decide

/-- A ready state, and every premise on the request that the statements about steps and runs make. -/
theorem witness_ready_and_presented :
    Ready State.reset ∧ Ready (presented (encode (.msb 5))) ∧
    (presented (encode (.msb 5))).request = some (encode (.msb 5)) ∧ (decode (encode (.msb 5))).operand ≠ 0 ∧
    (presented (encode (.lsb 0))).request = some (encode (.lsb 0)) ∧ (decode (encode (.lsb 0))).operand = 0 ∧
    State.reset.request = none ∧ 0 < 8 ∧ 8 < 9 := by decide

/-- OperationStartLoadsTheEngine: both engines. -/
theorem witness_OperationStartLoadsTheEngine :
    engineOf (commandOf (.clz 1)) = .msbLzc ∧ engineOf (commandOf (.ctz 1)) = .lsbTz := by decide

/-- An operation in progress from which a step completes, at its first and its last stage. -/
theorem witness_operation_in_progress :
    midOperation.resetIn = false ∧ midOperation.running = some ⟨.msb, 4⟩ ∧ midOperation.running ≠ none ∧
    ({ midOperation with running := some ⟨.ctz, 0⟩ } : State).running = some ⟨.ctz, 0⟩ ∧
    ({ midOperation with running := some ⟨.clz, 7⟩ } : State).running = some ⟨.clz, 7⟩ := by decide

/-- The premise of the statements about a step's next state is met on each of its five paths. -/
theorem witness_steps :
    (∃ t, step (assertReset midOperation) = .next t) ∧ (∃ t, step midOperation = .next t) ∧
    (∃ t, step State.reset = .next t) ∧ (∃ t, step (presented (encode (.lsb 0))) = .next t) ∧
    (∃ t, step (presented (encode (.clz 7))) = .next t) :=
  ⟨⟨_, rfl⟩, ⟨_, rfl⟩, ⟨_, rfl⟩, ⟨_, exec_eq (.lsb 0) _⟩, ⟨_, exec_eq (.clz 7) _⟩⟩

/-- FaultMarkIsNeverCleared: a state out of reset whose mark is set, and its step. -/
theorem witness_FaultMarkIsNeverCleared :
    ({ State.reset with faultMark := true } : State).faultMark = true ∧
    ({ State.reset with faultMark := true } : State).resetIn = false ∧
    step { State.reset with faultMark := true } = .next { State.reset with faultMark := true } := ⟨rfl, rfl, rfl⟩

/-- The frames: a nonzero operand and an outcome, for each command. -/
theorem witness_frames :
    (∃ t, exec (.msb 7) State.reset = .next t) ∧ (∃ t, exec (.clz 7) State.reset = .next t) ∧
    (∃ t, exec (.lsb 7) State.reset = .next t) ∧ (∃ t, exec (.ctz 7) State.reset = .next t) :=
  ⟨⟨_, rfl⟩, ⟨_, rfl⟩, ⟨_, rfl⟩, ⟨_, rfl⟩⟩

/-- SchedulesDoNotMatter: two instances and a schedule of events that all exist. -/
theorem witness_SchedulesDoNotMatter :
    (∀ e ∈ [(0, encode (.msb 1)), (1, encode (.lsb 0))], e.1 < [State.reset, midOperation].length) ∧
    [State.reset, midOperation][1]? = some midOperation ∧
    (∀ s ∈ [State.reset, presented (encode (.msb 5))], Ready s) := by decide

/-- ResetDropsTheOperation and StepIsItsStageTicks: states in which reset is asserted, with and without a request. -/
theorem witness_ResetDropsTheOperation :
    (assertReset midOperation).resetIn = true ∧ ({ midOperation with resetIn := true } : State).resetIn = true ∧
    (assertReset (presented (encode (.msb 5)))).resetIn = true := by decide

/-- The invariants hold of the state right after reset, and the operation in progress of `midOperation` is a real one. -/
theorem witness_invariants :
    RecordInv State.reset ∧ InFlightInv midOperation := by
  refine ⟨by decide, fun op h => ?_⟩
  injection h with h
  subst h
  exact ⟨1234567890, by decide, by decide⟩

/-- CallerDuties: a state with a request standing, one with an operation in progress, one with neither, one with a
response. -/
theorem witness_CallerDuties :
    (presented (encode (.msb 5))).request ≠ none ∧ midOperation.running ≠ none ∧
    State.reset.request = none ∧ State.reset.running = none ∧
    ({ State.reset with response := some .domainError } : State).response = some .domainError := by decide

end Sys2Proof.Tests
end

section
/-! PROOFS. The limb view of an operand (R12, R48): what each limb and the assembled value are over the natural
numbers, and that splitting and assembling undo each other. -/

namespace Sys2Proof.Machine

theorem toLimbs_l0_toNat (x : U256) : (toLimbs x).l0.toNat = x.toNat % 2 ^ 64 := by
  simp [toLimbs]

theorem toLimbs_l1_toNat (x : U256) : (toLimbs x).l1.toNat = x.toNat / 2 ^ 64 % 2 ^ 64 := by
  simp [toLimbs, Nat.shiftRight_eq_div_pow]

theorem toLimbs_l2_toNat (x : U256) : (toLimbs x).l2.toNat = x.toNat / 2 ^ 128 % 2 ^ 64 := by
  simp [toLimbs, Nat.shiftRight_eq_div_pow]

theorem toLimbs_l3_toNat (x : U256) : (toLimbs x).l3.toNat = x.toNat / 2 ^ 192 % 2 ^ 64 := by
  simp [toLimbs, Nat.shiftRight_eq_div_pow]

/-- A concatenation is the weighted sum of its two halves. -/
theorem toNat_append_eq_add {v w : Nat} (a : BitVec v) (b : BitVec w) :
    (a ++ b).toNat = a.toNat * 2 ^ w + b.toNat := by
  rw [BitVec.toNat_append, ← Nat.shiftLeft_add_eq_or_of_lt b.isLt, Nat.shiftLeft_eq]

/-- The assembled value is the weighted sum of the limbs, limb 0 least significant (R48). -/
theorem ofLimbs_toNat (l : Limbs) :
    (ofLimbs l).toNat =
      l.l0.toNat + l.l1.toNat * 2 ^ 64 + l.l2.toNat * 2 ^ 128 + l.l3.toNat * 2 ^ 192 := by
  rw [ofLimbs, toNat_append_eq_add, toNat_append_eq_add, toNat_append_eq_add]
  omega

/-- A U256 is the weighted sum of its four limbs (R12). -/
theorem toNat_eq_limb_sum (x : U256) :
    x.toNat = (toLimbs x).l0.toNat + (toLimbs x).l1.toNat * 2 ^ 64 + (toLimbs x).l2.toNat * 2 ^ 128 +
      (toLimbs x).l3.toNat * 2 ^ 192 := by
  have hx : x.toNat < 2 ^ 256 := x.isLt
  rw [toLimbs_l0_toNat, toLimbs_l1_toNat, toLimbs_l2_toNat, toLimbs_l3_toNat]
  omega

@[simp] theorem ofLimbs_toLimbs (x : U256) : ofLimbs (toLimbs x) = x :=
  BitVec.eq_of_toNat_eq ((ofLimbs_toNat _).trans (toNat_eq_limb_sum x).symm)

/-- Two limb views are equal when each limb holds the same number. -/
theorem Limbs.eq_of_toNat_eq {a b : Limbs} (h0 : a.l0.toNat = b.l0.toNat) (h1 : a.l1.toNat = b.l1.toNat)
    (h2 : a.l2.toNat = b.l2.toNat) (h3 : a.l3.toNat = b.l3.toNat) : a = b := by
  cases a
  cases b
  simp_all [BitVec.toNat_inj]

/-- Each limb is below 2^64, so the digits of the assembled value in base 2^64 are the limbs again. -/
@[simp] theorem toLimbs_ofLimbs (l : Limbs) : toLimbs (ofLimbs l) = l := by
  have h0 : l.l0.toNat < 2 ^ 64 := l.l0.isLt
  have h1 : l.l1.toNat < 2 ^ 64 := l.l1.isLt
  have h2 : l.l2.toNat < 2 ^ 64 := l.l2.isLt
  have h3 : l.l3.toNat < 2 ^ 64 := l.l3.isLt
  apply Limbs.eq_of_toNat_eq
  · rw [toLimbs_l0_toNat, ofLimbs_toNat]; omega
  · rw [toLimbs_l1_toNat, ofLimbs_toNat]; omega
  · rw [toLimbs_l2_toNat, ofLimbs_toNat]; omega
  · rw [toLimbs_l3_toNat, ofLimbs_toNat]; omega

/-- Settles O29: both sides are compared as natural numbers written in base 2^64. -/
theorem limbsHoldTheValue : Obligations.LimbsHoldTheValue :=
  ⟨fun x => ⟨toNat_eq_limb_sum x, ofLimbs_toLimbs x⟩, toLimbs_ofLimbs⟩

end Sys2Proof.Machine
end

section
/-! PROOFS. The domain error as every command's answer (R17, R155). -/

namespace Sys2Proof.Machine

/-- The `err` bit is 1 in the domain error only (R46). -/
theorem errBit_iff (rsp : Response) : errBit rsp = true ↔ rsp = .domainError := by
  cases rsp <;> simp [errBit]

/-- Settles O39: on a zero operand the command raises the domain error, on any other it gives its result. -/
theorem domainErrorExactlyOnZero : Obligations.DomainErrorExactlyOnZero := by
  intro i s
  by_cases h : i.operand = 0
  · exact ⟨_, _, exec_zero s h, raiseDomainError_response s, by simp [errBit_iff, h], by simp [h]⟩
  · exact ⟨_, _, exec_nonzero s h, giveResult_response _ _ s, by simpa [errBit_iff] using h, by simpa using h⟩

end Sys2Proof.Machine
end

section
/-! PROOFS. What a ready block answers to a request and to a sequence of requests (R36, R169): the response is a
function of the request alone, and no request changes what a later one gets. -/

namespace Sys2Proof.Machine

/-- The result a command gives is its view of the accumulator after its engine's eight stages (R51). -/
theorem resultOf_eq_viewOf_finishStages (i : Instr) :
    resultOf i = viewOf (commandOf i)
      (finishStages (engineOf (commandOf i)) 0 (engineLoad (engineOf (commandOf i)) i.operand)).r := by
  rw [finishStages_load]
  cases i <;> simp only [resultOf, msbRun_eq_after, lsbRun_eq_after] <;> rfl

theorem responseOf_zero {w : ReqWord} (h : (decode w).operand = 0) : responseOf w = .domainError := by
  simp [responseOf, h]

theorem responseOf_nonzero {w : ReqWord} (h : (decode w).operand ≠ 0) :
    responseOf w = .ok (resultOf (decode w)) := by
  rw [responseOf, if_neg (by rwa [isDomainError_iff]), resultOf_eq_viewOf_finishStages]

/-- A ready block answers a request with `responseOf`, records it, and is ready again (R36, R168). -/
theorem serve_answers_responseOf (w : ReqWord) {s : State} (h : Ready s) :
    ∃ t, serve w s = .next t ∧ Ready t ∧ t.response = some (responseOf w) ∧
      t.record = s.record ++ [responseOf w] ∧
      t.faultMark = (s.faultMark || (decode w).operand == 0) := by
  obtain ⟨hreset, hrun⟩ := h
  rw [serve_of_ready w hreset hrun]
  by_cases hz : (decode w).operand = 0
  · refine ⟨_, exec_zero _ hz, ?_⟩
    simp [Ready, hreset, responseOf_zero hz, hz]
  · have hmark : ((decode w).operand == 0) = false := beq_false_of_ne hz
    refine ⟨_, exec_nonzero _ hz, ?_⟩
    rw [hmark]
    simp [Ready, hreset, responseOf_nonzero hz]

/-- A run on a ready block records the response of each request, in order, and ends ready. -/
theorem serveAll_records_responses (ws : List ReqWord) {s : State} (h : Ready s) :
    ∃ t, serveAll ws s = .next t ∧ Ready t ∧ t.record = s.record ++ ws.map responseOf ∧
      t.faultMark = (s.faultMark || ws.any fun w => (decode w).operand == 0) := by
  induction ws generalizing s with
  | nil => exact ⟨s, rfl, h, by simp, by simp⟩
  | cons w ws ih =>
    obtain ⟨u, hserve, hu, -, hrecord, hmark⟩ := serve_answers_responseOf w h
    obtain ⟨t, hrest, ht, hrecords, hmarks⟩ := ih hu
    refine ⟨t, (serveAll_cons hserve).trans hrest, ht, ?_, ?_⟩
    · simp [hrecords, hrecord]
    · simp [hmarks, hmark, Bool.or_assoc]

/-- Settles O49: the response is `responseOf` of the request in every ready state, and a run records the responses of
its requests in order. -/
theorem operationsDoNotInteract : Obligations.OperationsDoNotInteract := by
  refine ⟨fun w s s' hs hs' => ?_, fun a b s hs => ?_, fun w s hs => ?_⟩
  · obtain ⟨t, ht, -, hresponse, -⟩ := serve_answers_responseOf w hs
    obtain ⟨t', ht', -, hresponse', -⟩ := serve_answers_responseOf w hs'
    exact ⟨t, t', responseOf w, ht, ht', hresponse, hresponse'⟩
  · obtain ⟨t, ht, -, hrecord, -⟩ := serveAll_records_responses [a, b] hs
    obtain ⟨u, hu, -, hrecord', -⟩ := serveAll_records_responses [b, a] hs
    exact ⟨t, u, responseOf a, responseOf b, ht, hu, hrecord, hrecord'⟩
  · obtain ⟨t, ht, -, hrecord, -⟩ := serveAll_records_responses [w, w] hs
    exact ⟨t, responseOf w, ht, hrecord⟩

end Sys2Proof.Machine
end

section
/-! PROOFS. Request words (R45, R47, R55): what the decoder reads is decided by the `op` field, and each bit of an
encoded command is a bit of its operand or of its operation code. -/

namespace Sys2Proof

theorem wellFormed_eq_true (i : Instr) : i.wellFormed = true := by
  cases i <;> rfl

/-- One decoding line for each value of the `op` field (R55). -/
theorem decode_cases (w : ReqWord) :
    (opField w = 0b00#2 ∧ decode w = .msb (operandField w)) ∨
    (opField w = 0b01#2 ∧ decode w = .lsb (operandField w)) ∨
    (opField w = 0b10#2 ∧ decode w = .clz (operandField w)) ∨
    (opField w = 0b11#2 ∧ decode w = .ctz (operandField w)) := by
  rcases opSel_cases (opField w) with h | h | h | h
  · exact .inl ⟨h, by simp [decode, h]⟩
  · exact .inr (.inl ⟨h, by simp [decode, h]⟩)
  · exact .inr (.inr (.inl ⟨h, by simp [decode, h]⟩))
  · exact .inr (.inr (.inr ⟨h, by simp [decode, h]⟩))

@[simp] theorem opCode_decode (w : ReqWord) : opCode (decode w) = opField w := by
  obtain ⟨h, hd⟩ | ⟨h, hd⟩ | ⟨h, hd⟩ | ⟨h, hd⟩ := decode_cases w <;> rw [h, hd] <;> rfl

@[simp] theorem operand_decode (w : ReqWord) : (decode w).operand = operandField w := by
  obtain ⟨-, hd⟩ | ⟨-, hd⟩ | ⟨-, hd⟩ | ⟨-, hd⟩ := decode_cases w <;> rw [hd] <;> rfl

/-- Every word is the encoding of what it decodes to, since both fields are kept (R45, R55). -/
@[simp] theorem encode_decode (w : ReqWord) : encode (decode w) = w := by
  rw [encode, opCode_decode, operand_decode, opField_append_operandField]

/-- The bits of a request word: the operand below bit 256, the operation code from there on (R45). -/
theorem getLsbD_encode (i : Instr) (j : Nat) :
    (encode i).getLsbD j = if j < 256 then i.operand.getLsbD j else (opCode i).getLsbD (j - 256) :=
  BitVec.getLsbD_append

/-- Settles O2: the decoder's four lines are indexed by the four values of the `op` field, and encoding puts the
operation code before the operand by definition. -/
theorem eachWordHasOneDecoding : Obligations.EachWordHasOneDecoding :=
  ⟨decode_cases, fun _ => ⟨rfl, rfl, rfl, rfl⟩⟩

/-- Settles O3: the layout is read bit by bit from the encoding, and a word is the encoding of the command it decodes
to. -/
theorem requestWordLayout : Obligations.RequestWordLayout := by
  intro i
  refine ⟨fun j hj => ?_, getLsbD_encode i 256, getLsbD_encode i 257, fun w => ?_⟩
  · rw [getLsbD_encode, if_pos hj]
  · exact ⟨decode w, wellFormed_eq_true _, encode_decode w⟩

end Sys2Proof
end

section
/-! PROOFS. Response words (R46, R49): the `err` bit, the result field, and what the caller reads from them. -/

namespace Sys2Proof.Machine

/-- Bit 8 of a response word is the `err` bit of its response (R46). -/
theorem responseWordOf_getLsbD_eight (free : Index) (rsp : Response) :
    (responseWordOf free rsp).getLsbD 8 = errBit rsp := by
  cases rsp <;> rw [responseWordOf, BitVec.getLsbD_append] <;> rfl

/-- Bits 7:0 of a result's response word are the result (R46). -/
@[simp] theorem responseWordOf_ok_extractLsb' (free r : Index) :
    (responseWordOf free (.ok r)).extractLsb' 0 8 = r := by
  apply BitVec.eq_of_getLsbD_eq
  intro j hj
  rw [BitVec.getLsbD_extractLsb', responseWordOf, BitVec.getLsbD_append]
  simp [hj]

/-- The caller reads back what was sent: under `err = 1` it does not look at the `r` field (R49, R171). -/
@[simp] theorem readResponseWord_responseWordOf (free : Index) (rsp : Response) :
    readResponseWord (responseWordOf free rsp) = rsp := by
  rw [readResponseWord, responseWordOf_getLsbD_eight]
  cases rsp <;> simp [errBit]

/-- Settles O6: the two fields of the response word and its reading, for any `r` field under `err = 1`. -/
theorem responseWordLayout : Obligations.ResponseWordLayout := fun free =>
  ⟨fun r => ⟨responseWordOf_getLsbD_eight free (.ok r), responseWordOf_ok_extractLsb' free r⟩,
    responseWordOf_getLsbD_eight free .domainError, readResponseWord_responseWordOf free⟩

end Sys2Proof.Machine
end

section
/-! PROOFS. The stages of the MSB engine over the natural numbers (R66 to R68): what each stage writes, and that no
stage's addition wraps, so that the engine's registers hold the numbers of the source's algorithm. -/

namespace Sys2Proof.Machine

/-- A halving stage at or above its threshold shifts and adds (R67). -/
theorem msbHalve_of_le {w : Width} {e : WorkRegs} (h : 2 ^ widthBits w ≤ e.x.toNat) :
    msbHalve w e = ⟨shrU e.x (widthShift w), e.r + widthIndex w⟩ := by
  rw [msbHalve, if_pos ((msbTest_iff w e).2 h)]

/-- A halving stage below its threshold writes nothing (R67). -/
theorem msbHalve_of_lt {w : Width} {e : WorkRegs} (h : e.x.toNat < 2 ^ widthBits w) : msbHalve w e = e := by
  rw [msbHalve, if_neg (by rwa [msbTest_iff, Nat.not_le])]

/-- The final step adds 1 when `X` is at least 2 (R68). -/
theorem msbFinal_of_le {e : WorkRegs} (h : 2 ≤ e.x.toNat) : msbFinal e = { e with r := e.r + 1 } := by
  rw [msbFinal, if_pos ((msbTest_iff .w1 e).2 h)]

/-- The final step writes nothing when `X` is below 2 (R68). -/
theorem msbFinal_of_lt {e : WorkRegs} (h : e.x.toNat < 2) : msbFinal e = e := by
  rw [msbFinal, if_neg (by rw [msbTest_iff]; exact Nat.not_le.2 h)]

/-- The final step leaves `X` (R68, R191). -/
@[simp] theorem msbFinal_x (e : WorkRegs) : (msbFinal e).x = e.x := by
  rcases Nat.lt_or_ge e.x.toNat 2 with h | h
  · rw [msbFinal_of_lt h]
  · rw [msbFinal_of_le h]

/-- Settles O9: below its threshold a stage is the identity, and from it on the writes are those of its equation. -/
theorem msbStageEffect : Obligations.MsbStageEffect := by
  refine ⟨fun k e hk => ?_, fun e => ?_⟩
  · rw [msbStage_of_ne (Fin.ne_of_lt hk), ← stageWidth_bits k]
    refine ⟨fun h => ?_, msbHalve_of_lt⟩
    rw [msbHalve_of_le h, shrU_toNat, widthShift_val]
    exact ⟨rfl, rfl⟩
  · rw [msbStage_seven]
    exact ⟨msbFinal_x e, fun h => by rw [msbFinal_of_le h], msbFinal_of_lt⟩

theorem msbThresholdStep_of_le {p : Nat × Nat} {w : Nat} (h : 2 ^ w ≤ p.1) :
    msbThresholdStep p w = (p.1 / 2 ^ w, p.2 + w) :=
  if_pos h

theorem msbThresholdStep_of_lt {p : Nat × Nat} {w : Nat} (h : p.1 < 2 ^ w) : msbThresholdStep p w = p :=
  if_neg (Nat.not_le.2 h)

/-- The pair (x', r) of natural numbers that an engine's registers hold. -/
def WorkRegs.toNats (e : WorkRegs) : Nat × Nat :=
  (e.x.toNat, e.r.toNat)

@[simp] theorem WorkRegs.toNats_fst (e : WorkRegs) : e.toNats.1 = e.x.toNat := rfl
@[simp] theorem WorkRegs.toNats_snd (e : WorkRegs) : e.toNats.2 = e.r.toNat := rfl

/-- A halving stage whose addition does not wrap is a step of the source's algorithm, and adds at most its width
(R66, R67). -/
theorem toNats_msbHalve {w : Width} {e : WorkRegs} (h : e.r.toNat + widthBits w < 256) :
    (msbHalve w e).toNats = msbThresholdStep e.toNats (widthBits w) ∧
      (msbHalve w e).r.toNat ≤ e.r.toNat + widthBits w := by
  rcases Nat.lt_or_ge e.x.toNat (2 ^ widthBits w) with hx | hx
  · rw [msbHalve_of_lt hx, msbThresholdStep_of_lt hx]
    exact ⟨rfl, Nat.le_add_right _ _⟩
  · have hr : (e.r + widthIndex w).toNat = e.r.toNat + widthBits w := by
      rw [BitVec.toNat_add, widthIndex_toNat, Nat.mod_eq_of_lt h]
    rw [msbHalve_of_le hx, msbThresholdStep_of_le hx, WorkRegs.toNats, shrU_toNat, widthShift_val, hr]
    exact ⟨rfl, Nat.le_refl _⟩

/-- Halving stages whose widths all fit above the accumulator run as the source's algorithm, and the accumulator grows
by at most their sum. -/
theorem toNats_foldl_msbHalve {ws : List Width} {e : WorkRegs} (h : e.r.toNat + (ws.map widthBits).sum < 256) :
    (ws.foldl (fun e w => msbHalve w e) e).toNats = (ws.map widthBits).foldl msbThresholdStep e.toNats ∧
      (ws.foldl (fun e w => msbHalve w e) e).r.toNat ≤ e.r.toNat + (ws.map widthBits).sum := by
  induction ws generalizing e with
  | nil => exact ⟨rfl, Nat.le_refl _⟩
  | cons w ws ih =>
    rw [List.map_cons, List.sum_cons] at h ⊢
    obtain ⟨hstep, hr⟩ := toNats_msbHalve (w := w) (e := e) (by omega)
    obtain ⟨hfold, hle⟩ := ih (e := msbHalve w e) (by omega)
    rw [List.foldl_cons, List.foldl_cons, ← hstep]
    exact ⟨hfold, by omega⟩

/-- The final test of the source's algorithm is the final step of the engine, when its addition does not wrap. -/
theorem msbFinal_r_toNat {e : WorkRegs} (h : e.r.toNat ≤ 254) :
    (msbFinal e).r.toNat = if 2 ≤ e.toNats.1 then e.toNats.2 + 1 else e.toNats.2 := by
  rcases Nat.lt_or_ge e.x.toNat 2 with hx | hx
  · rw [msbFinal_of_lt hx, e.toNats_fst, e.toNats_snd, if_neg (Nat.not_le.2 hx)]
  · rw [msbFinal_of_le hx, e.toNats_fst, e.toNats_snd, if_pos hx, BitVec.toNat_add]
    exact Nat.mod_eq_of_lt (Nat.succ_lt_succ (Nat.lt_succ_of_le h))

/-- The MSB engine ends with the number the source's algorithm gives: the seven halving widths add up to 254, so the
accumulator never wraps (R66, R117). -/
theorem msbRun_r_toNat_eq_algorithm (x : U256) : (msbRun x).r.toNat = msbAlgorithm x.toNat := by
  have hsum : (msbLoad x).r.toNat + (halvingWidths.map widthBits).sum = 254 := rfl
  obtain ⟨hfold, hle⟩ := toNats_foldl_msbHalve (ws := halvingWidths) (e := msbLoad x) (by omega)
  rw [msbRun, msbFinal_r_toNat (hle.trans_eq hsum), hfold]
  rfl

end Sys2Proof.Machine
end

section
/-! PROOFS. The index the MSB engine ends with (R65, R66): the source's algorithm computes the binary logarithm, since
each of its steps keeps the sum of r and the logarithm of x' and halves the number of bits x' may have. -/

namespace Sys2Proof.Machine

/-- What a step's shift takes from the logarithm of x' is what it adds to r. -/
theorem msbThresholdStep_log (p : Nat × Nat) (w : Nat) :
    (msbThresholdStep p w).2 + Nat.log 2 (msbThresholdStep p w).1 = p.2 + Nat.log 2 p.1 := by
  rcases Nat.lt_or_ge p.1 (2 ^ w) with h | h
  · rw [msbThresholdStep_of_lt h]
  · have hw : w ≤ Nat.log 2 p.1 := Nat.le_log_of_pow_le (by decide) h
    rw [msbThresholdStep_of_le h, Nat.log_div_base_pow]
    omega

/-- The sequence of steps keeps the sum of r and the logarithm of x'. -/
theorem foldl_msbThresholdStep_log (ws : List Nat) (p : Nat × Nat) :
    (ws.foldl msbThresholdStep p).2 + Nat.log 2 (ws.foldl msbThresholdStep p).1 = p.2 + Nat.log 2 p.1 := by
  induction ws generalizing p with
  | nil => rfl
  | cons w ws ih => rw [List.foldl_cons, ih, msbThresholdStep_log]

/-- A step halves the number of bits x' may have. -/
theorem msbThresholdStep_fst_lt {p : Nat × Nat} {v w : Nat} (hv : v = w + w) (h : p.1 < 2 ^ v) :
    (msbThresholdStep p w).1 < 2 ^ w := by
  rcases Nat.lt_or_ge p.1 (2 ^ w) with hw | hw
  · rwa [msbThresholdStep_of_lt hw]
  · rw [msbThresholdStep_of_le hw]
    exact Nat.div_lt_of_lt_mul (by rwa [← Nat.pow_add, ← hv])

/-- After the seven steps at most two bits of a U256 are left. -/
theorem foldl_msbThresholdStep_fst_lt {p : Nat × Nat} (h : p.1 < 2 ^ 256) :
    ([128, 64, 32, 16, 8, 4, 2].foldl msbThresholdStep p).1 < 2 ^ 2 := by
  have h128 := msbThresholdStep_fst_lt (w := 128) rfl h
  have h64 := msbThresholdStep_fst_lt (w := 64) rfl h128
  have h32 := msbThresholdStep_fst_lt (w := 32) rfl h64
  have h16 := msbThresholdStep_fst_lt (w := 16) rfl h32
  have h8 := msbThresholdStep_fst_lt (w := 8) rfl h16
  have h4 := msbThresholdStep_fst_lt (w := 4) rfl h8
  have h2 := msbThresholdStep_fst_lt (w := 2) rfl h4
  simpa only [List.foldl_cons, List.foldl_nil] using h2

/-- The final test adds the logarithm of the two bits that are left. -/
theorem msbAlgorithm_eq_log {n : Nat} (h : n < 2 ^ 256) : msbAlgorithm n = Nat.log 2 n := by
  have hlt := foldl_msbThresholdStep_fst_lt (p := (n, 0)) h
  have hlog := foldl_msbThresholdStep_log [128, 64, 32, 16, 8, 4, 2] (n, 0)
  refine Eq.trans ?_ (hlog.trans (Nat.zero_add _))
  simp only [msbAlgorithm]
  generalize [128, 64, 32, 16, 8, 4, 2].foldl msbThresholdStep (n, 0) = p at hlt ⊢
  by_cases h : 2 ≤ p.1
  · have hone : Nat.log 2 p.1 = 1 := Nat.log_eq_of_pow_le_of_lt_pow h hlt
    rw [if_pos h, hone]
  · have hzero : Nat.log 2 p.1 = 0 := Nat.log_of_lt (Nat.not_le.1 h)
    rw [if_neg h, hzero, Nat.add_zero]

/-- The MSB engine ends with the binary logarithm of its operand (R65). -/
theorem msbRun_r_toNat (x : U256) : (msbRun x).r.toNat = Nat.log 2 x.toNat :=
  (msbRun_r_toNat_eq_algorithm x).trans (msbAlgorithm_eq_log x.isLt)

/-- On a nonzero operand the engine ends with an index of the contract (R65). -/
theorem msbContract_msbRun {x : U256} (h : x ≠ 0) : msbContract x (msbRun x).r := by
  have hx : x.toNat ≠ 0 := fun h0 => h (BitVec.eq_of_toNat_eq h0)
  rw [msbContract, msbRun_r_toNat]
  exact ⟨Nat.pow_log_le_self 2 hx, Nat.lt_pow_succ_log_self (by decide) x.toNat⟩

/-- The contract has one solution, the engine's. -/
theorem msbRun_r_of_contract {x : U256} {r : Index} (h : msbContract x r) : (msbRun x).r = r :=
  BitVec.eq_of_toNat_eq ((msbRun_r_toNat x).trans (Nat.log_eq_of_pow_le_of_lt_pow h.1 h.2))

theorem ne_zero_of_msbContract {x : U256} {r : Index} (h : msbContract x r) : x ≠ 0 := by
  rintro rfl
  exact absurd h.1 (Nat.not_le.2 (Nat.two_pow_pos _))

/-- An operand with bit 255 set has index 255 (R66). -/
theorem msbContract_of_two_pow_255_le {x : U256} (h : 2 ^ 255 ≤ x.toNat) : msbContract x 255 :=
  ⟨h, x.isLt⟩

/-- The index of 2^k is k (R71). -/
theorem msbContract_twoPow {k : Nat} (h : k < 256) : msbContract (BitVec.twoPow 256 k) (BitVec.ofNat 8 k) := by
  have hk : (BitVec.ofNat 8 k).toNat = k := Nat.mod_eq_of_lt h
  rw [msbContract, hk, ← powU, powU_toNat h]
  exact ⟨Nat.le_refl _, Nat.pow_lt_pow_right (by decide) (Nat.lt_succ_self k)⟩

/-- The worked example of R66 and R75. -/
theorem msbContract_example : msbContract 1234567890 30 := by decide

end Sys2Proof.Machine
end

section
/-! PROOFS. What MSB and CLZ answer (R65, R66, R71, R75): the index of the contract, and its complement. -/

namespace Sys2Proof.Machine

/-- On a nonzero operand a command answers its result (R161). -/
theorem answers_resultOf {i : Instr} (s : State) (h : i.operand ≠ 0) : Answers i s (resultOf i) :=
  ⟨_, exec_nonzero s h, giveResult_response _ _ s⟩

/-- On a zero operand a command fails (R155). -/
theorem fails_of_zero {i : Instr} (s : State) (h : i.operand = 0) : Fails i s :=
  ⟨_, exec_zero s h, raiseDomainError_response s⟩

theorem answers_msb_of_contract {x : U256} {r : Index} (s : State) (h : msbContract x r) : Answers (.msb x) s r := by
  have hr : resultOf (.msb x) = r := msbRun_r_of_contract h
  exact hr ▸ answers_resultOf s (ne_zero_of_msbContract h)

theorem answers_clz_of_contract {x : U256} {r : Index} (s : State) (h : msbContract x r) :
    Answers (.clz x) s (255 - r) := by
  have hr : resultOf (.clz x) = 255 - r := congrArg (255 - ·) (msbRun_r_of_contract h)
  exact hr ▸ answers_resultOf s (ne_zero_of_msbContract h)

/-- The complement of an index does not wrap (R75). -/
theorem toNat_complement (m : Index) : (255 - m).toNat = 255 - m.toNat :=
  BitVec.toNat_sub_of_le (BitVec.le_def.2 (Nat.le_of_lt_succ m.isLt))

/-- Settles O7: the engine's index keeps the contract, which says that bit r is set and that x has no bit above it. -/
theorem msbAnswersItsContract : Obligations.MsbAnswersItsContract := by
  refine fun x s => ⟨fun hx => ?_, fun hx => fails_of_zero s hx⟩
  have hc := msbContract_msbRun hx
  have ⟨hle, hlt⟩ := hc
  obtain ⟨t, hexec, hresponse⟩ := answers_msb_of_contract s hc
  refine ⟨_, t, hexec, hresponse, hc, Nat.testBit_of_two_pow_le_and_two_pow_add_one_gt hle hlt, fun j hj => ?_⟩
  exact Nat.testBit_eq_false_of_lt (hlt.trans_le (Nat.pow_le_pow_right (by decide) hj))

/-- Settles O8: the engine's index is the algorithm's, and the examples follow from the contract. -/
theorem msbFollowsTheAlgorithm : Obligations.MsbFollowsTheAlgorithm := by
  refine fun x s => ⟨rfl, fun hx => ?_, fun hx => ?_, answers_msb_of_contract s (by decide),
    fun h => answers_msb_of_contract s (msbContract_of_two_pow_255_le h),
    answers_msb_of_contract s msbContract_example, by decide⟩
  · exact ⟨_, _, exec_nonzero s hx, giveResult_response _ _ s, msbRun_r_toNat_eq_algorithm x,
      giveResult_msbLzc_lsb _ s, giveResult_request _ _ s⟩
  · exact ⟨_, exec_zero s hx, raiseDomainError_response s, raiseDomainError_msb s, raiseDomainError_lsb s,
      raiseDomainError_request s⟩

/-- Settles O11: each listed operand meets the contract with the listed index. -/
theorem msbEdgeCases : Obligations.MsbEdgeCases := fun s =>
  ⟨answers_msb_of_contract s (by decide), by decide, answers_msb_of_contract s (by decide), by decide,
    answers_msb_of_contract s (by decide), by decide, fun _ hk => answers_msb_of_contract s (msbContract_twoPow hk)⟩

/-- Settles O18: the result is the complement of MSB's, and the corner cases complement MSB's. -/
theorem clzAnswersTheComplementedIndex : Obligations.ClzAnswersTheComplementedIndex := by
  refine fun x s => ⟨rfl, fun hx => ?_, fun hx => fails_of_zero s hx, answers_clz_of_contract (r := 0) s (by decide),
    fun h => answers_clz_of_contract s (msbContract_of_two_pow_255_le h), fun k hk => ?_,
    answers_clz_of_contract s msbContract_example⟩
  · obtain ⟨t, hexec, hresponse⟩ := answers_resultOf (i := .clz x) s hx
    exact ⟨_, _, t, answers_resultOf (i := .msb x) s hx, hexec, hresponse, toNat_complement _⟩
  · have hcomplement : BitVec.ofNat 8 (255 - k) = 255 - BitVec.ofNat 8 k := by
      apply BitVec.eq_of_toNat_eq
      rw [toNat_complement, BitVec.toNat_ofNat, BitVec.toNat_ofNat, Nat.mod_eq_of_lt hk,
        Nat.mod_eq_of_lt (by omega)]
    rw [hcomplement]
    exact answers_clz_of_contract s (msbContract_twoPow hk)

end Sys2Proof.Machine
end

section
/-! PROOFS. The stages of the LSB engine over the natural numbers (R86 to R88): what each stage writes, and that no
stage's subtraction wraps, so that the engine's registers hold the numbers of the source's algorithm. -/

namespace Sys2Proof.Machine

/-- A halving stage whose low bits are not all zero subtracts (R87). -/
theorem lsbHalve_of_mod_ne {w : Width} {e : WorkRegs} (h : e.x.toNat % 2 ^ widthBits w ≠ 0) :
    lsbHalve w e = { e with r := e.r - widthIndex w } := by
  rw [lsbHalve, if_pos ((lsbTest_iff w e).2 h)]

/-- A halving stage whose low bits are all zero shifts (R87). -/
theorem lsbHalve_of_mod_eq {w : Width} {e : WorkRegs} (h : e.x.toNat % 2 ^ widthBits w = 0) :
    lsbHalve w e = { e with x := shrU e.x (widthShift w) } := by
  rw [lsbHalve, if_neg (by rwa [lsbTest_iff, not_not])]

/-- The final step subtracts 1 when `X` is odd (R88). -/
theorem lsbFinal_of_odd {e : WorkRegs} (h : e.x.toNat % 2 ≠ 0) : lsbFinal e = { e with r := e.r - 1 } := by
  rw [lsbFinal, if_pos ((lsbTest_iff .w1 e).2 h)]

/-- The final step writes nothing when `X` is even (R88). -/
theorem lsbFinal_of_even {e : WorkRegs} (h : e.x.toNat % 2 = 0) : lsbFinal e = e := by
  rw [lsbFinal, if_neg (by rw [lsbTest_iff]; exact not_not.2 h)]

/-- The final step leaves `X` (R88, R191). -/
@[simp] theorem lsbFinal_x (e : WorkRegs) : (lsbFinal e).x = e.x := by
  by_cases h : e.x.toNat % 2 = 0
  · rw [lsbFinal_of_even h]
  · rw [lsbFinal_of_odd h]

/-- Bit 0 of a U256 is its parity. -/
theorem getLsbD_zero_iff (x : U256) : x.getLsbD 0 = true ↔ x.toNat % 2 ≠ 0 := by
  rw [BitVec.getLsbD, Nat.testBit_zero, decide_eq_true_eq, Nat.mod_two_ne_zero]

/-- Settles O14: the two cases of a stage's mask test are the two cases of the statement. -/
theorem lsbStageEffect : Obligations.LsbStageEffect := by
  refine ⟨fun k e hk => ?_, fun e => ?_⟩
  · rw [lsbStage_of_ne (Fin.ne_of_lt hk), ← stageWidth_bits k]
    refine ⟨fun h => ?_, fun h => ?_⟩
    · rw [lsbHalve_of_mod_ne h]
      exact ⟨rfl, rfl⟩
    · rw [lsbHalve_of_mod_eq h, shrU_toNat, widthShift_val]
      exact ⟨rfl, rfl⟩
  · rw [lsbStage_seven]
    refine ⟨lsbFinal_x e, fun h => ?_, fun h => lsbFinal_of_even ?_⟩
    · rw [lsbFinal_of_odd ((getLsbD_zero_iff e.x).1 h)]
    · rwa [← Bool.not_eq_true, getLsbD_zero_iff, not_not] at h

theorem lsbMaskStep_of_mod_ne {p : Nat × Nat} {w : Nat} (h : p.1 % 2 ^ w ≠ 0) :
    lsbMaskStep p w = (p.1, p.2 - w) :=
  if_pos h

theorem lsbMaskStep_of_mod_eq {p : Nat × Nat} {w : Nat} (h : p.1 % 2 ^ w = 0) :
    lsbMaskStep p w = (p.1 / 2 ^ w, p.2) :=
  if_neg (not_not.2 h)

/-- A halving stage whose subtraction does not wrap is a step of the source's algorithm, and subtracts at most its
width (R86, R87). -/
theorem toNats_lsbHalve {w : Width} {e : WorkRegs} (h : widthBits w ≤ e.r.toNat) :
    (lsbHalve w e).toNats = lsbMaskStep e.toNats (widthBits w) ∧
      e.r.toNat ≤ (lsbHalve w e).r.toNat + widthBits w := by
  by_cases hx : e.x.toNat % 2 ^ widthBits w = 0
  · rw [lsbHalve_of_mod_eq hx, lsbMaskStep_of_mod_eq hx, WorkRegs.toNats, shrU_toNat, widthShift_val]
    exact ⟨rfl, Nat.le_add_right _ _⟩
  · have hr : (e.r - widthIndex w).toNat = e.r.toNat - widthBits w := by
      rw [BitVec.toNat_sub_of_le (BitVec.le_def.2 (by rwa [widthIndex_toNat])), widthIndex_toNat]
    rw [lsbHalve_of_mod_ne hx, lsbMaskStep_of_mod_ne hx, WorkRegs.toNats, hr]
    exact ⟨rfl, by omega⟩

/-- Halving stages whose widths all fit below the accumulator run as the source's algorithm, and the accumulator falls
by at most their sum. -/
theorem toNats_foldl_lsbHalve {ws : List Width} {e : WorkRegs} (h : (ws.map widthBits).sum ≤ e.r.toNat) :
    (ws.foldl (fun e w => lsbHalve w e) e).toNats = (ws.map widthBits).foldl lsbMaskStep e.toNats ∧
      e.r.toNat ≤ (ws.foldl (fun e w => lsbHalve w e) e).r.toNat + (ws.map widthBits).sum := by
  induction ws generalizing e with
  | nil => exact ⟨rfl, Nat.le_refl _⟩
  | cons w ws ih =>
    rw [List.map_cons, List.sum_cons] at h ⊢
    obtain ⟨hstep, hr⟩ := toNats_lsbHalve (w := w) (e := e) (by omega)
    obtain ⟨hfold, hle⟩ := ih (e := lsbHalve w e) (by omega)
    rw [List.foldl_cons, List.foldl_cons, ← hstep]
    exact ⟨hfold, by omega⟩

/-- The final test of the source's algorithm is the final step of the engine, when its subtraction does not wrap. -/
theorem lsbFinal_r_toNat {e : WorkRegs} (h : 1 ≤ e.r.toNat) :
    (lsbFinal e).r.toNat = if e.toNats.1 % 2 ≠ 0 then e.toNats.2 - 1 else e.toNats.2 := by
  by_cases hx : e.x.toNat % 2 = 0
  · rw [lsbFinal_of_even hx, e.toNats_fst, e.toNats_snd, if_neg (not_not.2 hx)]
  · rw [lsbFinal_of_odd hx, e.toNats_fst, e.toNats_snd, if_pos hx]
    exact BitVec.toNat_sub_of_le (BitVec.le_def.2 h)

/-- The LSB engine ends with the number the source's algorithm gives: the seven halving widths add up to 254, so the
accumulator never wraps (R86, R117). -/
theorem lsbRun_r_toNat_eq_algorithm (x : U256) : (lsbRun x).r.toNat = lsbAlgorithm x.toNat := by
  have hload : (lsbLoad x).r.toNat = 255 := rfl
  have hsum : (halvingWidths.map widthBits).sum = 254 := rfl
  obtain ⟨hfold, hle⟩ := toNats_foldl_lsbHalve (ws := halvingWidths) (e := lsbLoad x) (by omega)
  rw [lsbRun, lsbFinal_r_toNat (by omega), hfold]
  rfl

end Sys2Proof.Machine
end

section
/-! PROOFS. The index the LSB engine ends with (R85, R86): the source's algorithm computes the exponent of the largest
power of two that divides x, since what a step's shift takes from that exponent of x' the step does not take from r. -/

namespace Sys2Proof.Machine

/-- The algorithm's invariant before a step on the low v bits of x', for the exponent `t` of the operand: a set bit is
among them, and r is ahead of `t` by the places above it. -/
def LsbWindow (t v : Nat) (p : Nat × Nat) : Prop :=
  p.1 % 2 ^ v ≠ 0 ∧ p.2 + padicValNat 2 p.1 + 1 = v + t

theorem LsbWindow.fst_ne_zero {t v : Nat} {p : Nat × Nat} (h : LsbWindow t v p) : p.1 ≠ 0 := by
  intro h0
  obtain ⟨hmod, -⟩ := h
  rw [h0, Nat.zero_mod] at hmod
  exact hmod rfl

/-- A nonzero number below 2^v has a set bit among its low v bits. -/
theorem lsbWindow_of_lt {n v : Nat} (h0 : n ≠ 0) (h : n < 2 ^ v) : LsbWindow (padicValNat 2 n) v (n, v - 1) := by
  have hv : v ≠ 0 := by rintro rfl; omega
  refine ⟨by rwa [Nat.mod_eq_of_lt h], ?_⟩
  simp only
  omega

/-- The low w bits of a nonzero number are all zero when its exponent is at least w. -/
theorem mod_two_pow_eq_zero_iff {n w : Nat} (h : n ≠ 0) : n % 2 ^ w = 0 ↔ w ≤ padicValNat 2 n := by
  rw [← Nat.dvd_iff_mod_eq_zero, padicValNat_dvd_iff_le h]

/-- A set bit among the low bits is among those of the low half, or among those of the upper half and stands in the low
half after the shift. -/
theorem LsbWindow.step {t w : Nat} {p : Nat × Nat} (h : LsbWindow t (w + w) p) :
    LsbWindow t w (lsbMaskStep p w) := by
  have h0 := h.fst_ne_zero
  obtain ⟨hmod, hsum⟩ := h
  have hlt : padicValNat 2 p.1 < w + w := by rwa [Ne, mod_two_pow_eq_zero_iff h0, Nat.not_le] at hmod
  by_cases hw : p.1 % 2 ^ w = 0
  · have hle : w ≤ padicValNat 2 p.1 := (mod_two_pow_eq_zero_iff h0).1 hw
    have hdvd : 2 ^ w ∣ p.1 := Nat.dvd_of_mod_eq_zero hw
    have hq : p.1 / 2 ^ w ≠ 0 := (Nat.div_pos (Nat.le_of_dvd (Nat.pos_of_ne_zero h0) hdvd) (by positivity)).ne'
    have hval : padicValNat 2 (p.1 / 2 ^ w) = padicValNat 2 p.1 - w := padicValNat.div_pow hdvd
    rw [lsbMaskStep_of_mod_eq hw]
    constructor
    · rw [Ne, mod_two_pow_eq_zero_iff hq]
      omega
    · simp only [hval]
      omega
  · have hlow : padicValNat 2 p.1 < w := by rwa [mod_two_pow_eq_zero_iff h0, Nat.not_le] at hw
    rw [lsbMaskStep_of_mod_ne hw]
    refine ⟨hw, ?_⟩
    simp only
    omega

/-- After the seven steps a set bit is among the low two bits. -/
theorem LsbWindow.foldl {t : Nat} {p : Nat × Nat} (h : LsbWindow t 256 p) :
    LsbWindow t 2 ([128, 64, 32, 16, 8, 4, 2].foldl lsbMaskStep p) :=
  LsbWindow.step (w := 2) <| LsbWindow.step (w := 4) <| LsbWindow.step (w := 8) <| LsbWindow.step (w := 16) <|
    LsbWindow.step (w := 32) <| LsbWindow.step (w := 64) <| LsbWindow.step (w := 128) h

/-- The final test decides between the two bits that are left. -/
theorem LsbWindow.final {t : Nat} {p : Nat × Nat} (h : LsbWindow t 2 p) :
    (if p.1 % 2 ≠ 0 then p.2 - 1 else p.2) = t := by
  have h0 := h.fst_ne_zero
  obtain ⟨hmod, hsum⟩ := h
  have hlt : ¬ 2 ≤ padicValNat 2 p.1 := by rwa [← mod_two_pow_eq_zero_iff h0]
  have hbit := mod_two_pow_eq_zero_iff (w := 1) h0
  rw [Nat.pow_one] at hbit
  split
  case isTrue hodd =>
    rw [Ne, hbit] at hodd
    omega
  case isFalse heven =>
    rw [not_not, hbit] at heven
    omega

/-- The source's algorithm computes the exponent of the largest power of two that divides its operand. -/
theorem lsbAlgorithm_eq_padicValNat {n : Nat} (h0 : n ≠ 0) (h : n < 2 ^ 256) :
    lsbAlgorithm n = padicValNat 2 n :=
  (lsbWindow_of_lt h0 h).foldl.final

theorem toNat_ne_zero {x : U256} (h : x ≠ 0) : x.toNat ≠ 0 :=
  BitVec.toNat_ne_iff_ne.2 h

/-- The LSB engine ends with the exponent of the largest power of two that divides its operand (R85, R146). -/
theorem lsbRun_r_toNat {x : U256} (h : x ≠ 0) : (lsbRun x).r.toNat = padicValNat 2 x.toNat :=
  (lsbRun_r_toNat_eq_algorithm x).trans (lsbAlgorithm_eq_padicValNat (toNat_ne_zero h) x.isLt)

/-- AND with 2^r tests bit r (R136). -/
theorem andU_powU_ne_zero_iff (x : U256) (r : Index) : andU x (powU r.toNat) ≠ 0 ↔ x.getLsbD r.toNat = true := by
  rw [andU, powU, BitVec.and_twoPow]
  split
  case isTrue h =>
    refine iff_of_true (fun h0 => ?_) h
    have hpow := powU_toNat r.isLt
    rw [powU, h0] at hpow
    exact absurd hpow (Nat.two_pow_pos _).ne
  case isFalse h => exact iff_of_false (not_not.2 rfl) h

/-- AND with 2^r - 1 keeps the bits below r (R136). -/
theorem andU_belowU_eq_zero_iff (x : U256) (r : Index) :
    andU x (belowU r.toNat) = 0 ↔ 2 ^ r.toNat ∣ x.toNat := by
  rw [← BitVec.toNat_inj, andU, BitVec.toNat_and, belowU_toNat r.isLt, Nat.and_two_pow_sub_one_eq_mod,
    Nat.dvd_iff_mod_eq_zero]
  rfl

/-- The contract says that bit r is set and that 2^r divides x. -/
theorem lsbContract_iff (x : U256) (r : Index) :
    lsbContract x r ↔ x.getLsbD r.toNat = true ∧ 2 ^ r.toNat ∣ x.toNat :=
  and_congr (andU_powU_ne_zero_iff x r) (andU_belowU_eq_zero_iff x r)

/-- The contract says that 2^r is the largest power of two that divides x (R146). -/
theorem lsbContract_iff_dvd (x : U256) (r : Index) :
    lsbContract x r ↔ 2 ^ r.toNat ∣ x.toNat ∧ ¬ 2 ^ (r.toNat + 1) ∣ x.toNat := by
  rw [lsbContract_iff, and_comm]
  refine and_congr_right fun hdvd => ?_
  rw [Nat.pow_succ, ← Nat.dvd_div_iff_mul_dvd hdvd, Nat.two_dvd_ne_zero, BitVec.getLsbD,
    Nat.testBit_eq_decide_div_mod_eq, decide_eq_true_eq]

/-- On a nonzero operand the engine ends with an index of the contract (R85). -/
theorem lsbContract_lsbRun {x : U256} (h : x ≠ 0) : lsbContract x (lsbRun x).r := by
  rw [lsbContract_iff_dvd, padicValNat_dvd_iff_le (toNat_ne_zero h), padicValNat_dvd_iff_le (toNat_ne_zero h),
    lsbRun_r_toNat h]
  omega

theorem ne_zero_of_lsbContract {x : U256} {r : Index} (h : lsbContract x r) : x ≠ 0 := by
  rintro rfl
  exact ((lsbContract_iff_dvd 0 r).1 h).2 (dvd_zero _)

/-- The contract has one solution, the engine's. -/
theorem lsbRun_r_of_contract {x : U256} {r : Index} (h : lsbContract x r) : (lsbRun x).r = r := by
  have hx := ne_zero_of_lsbContract h
  rw [lsbContract_iff_dvd, padicValNat_dvd_iff_le (toNat_ne_zero hx), padicValNat_dvd_iff_le (toNat_ne_zero hx)] at h
  apply BitVec.eq_of_toNat_eq
  rw [lsbRun_r_toNat hx]
  omega

/-- Every bit below an index of the contract is clear (R85). -/
theorem getLsbD_of_lt_of_lsbContract {x : U256} {r : Index} (h : lsbContract x r) {j : Nat} (hj : j < r.toNat) :
    x.getLsbD j = false := by
  obtain ⟨m, hm⟩ := ((lsbContract_iff x r).1 h).2
  rw [BitVec.getLsbD, hm, Nat.testBit_two_pow_mul, decide_eq_false (Nat.not_le.2 hj), Bool.false_and]

/-- An odd operand has index 0 (R86, R95). -/
theorem lsbContract_zero {x : U256} (h : x.getLsbD 0 = true) : lsbContract x 0 :=
  (lsbContract_iff x 0).2 ⟨h, one_dvd _⟩

/-- The index of 2^k is k (R91). -/
theorem lsbContract_twoPow {k : Nat} (h : k < 256) : lsbContract (BitVec.twoPow 256 k) (BitVec.ofNat 8 k) := by
  have hk : (BitVec.ofNat 8 k).toNat = k := Nat.mod_eq_of_lt h
  rw [lsbContract_iff_dvd, hk, ← powU, powU_toNat h]
  have hlt : 2 ^ k < 2 ^ (k + 1) := Nat.pow_lt_pow_right (by decide) (Nat.lt_succ_self k)
  exact ⟨dvd_rfl, Nat.not_dvd_of_pos_of_lt (Nat.two_pow_pos k) hlt⟩

/-- Index 255 is that of 2^255 only: no other nonzero multiple of it is below 2^256 (R86). -/
theorem lsbContract_255_iff (x : U256) : lsbContract x 255 ↔ x = BitVec.twoPow 256 255 := by
  refine ⟨fun h => ?_, fun h => h ▸ lsbContract_twoPow (by decide)⟩
  have hx : x.toNat < 2 ^ 255 * 2 := x.isLt
  have h0 := toNat_ne_zero (ne_zero_of_lsbContract h)
  obtain ⟨m, hm⟩ := ((lsbContract_iff_dvd x 255).1 h).1
  replace hm : x.toNat = 2 ^ 255 * m := hm
  have hpow : (BitVec.twoPow 256 255).toNat = 2 ^ 255 := powU_toNat (by decide)
  apply BitVec.eq_of_toNat_eq
  omega

/-- The worked example of R86. -/
theorem lsbContract_example : lsbContract 1234567890 1 := by decide

end Sys2Proof.Machine
end

section
/-! PROOFS. What LSB and CTZ answer (R85, R86, R91, R95): both the index of the contract. -/

namespace Sys2Proof.Machine

/-- A command answers a result on a nonzero operand only, and no other than its own. -/
theorem answers_iff {i : Instr} {s : State} {r : Index} : Answers i s r ↔ i.operand ≠ 0 ∧ resultOf i = r := by
  refine ⟨fun ⟨t, hexec, hresponse⟩ => ?_, fun ⟨h, hr⟩ => hr ▸ answers_resultOf s h⟩
  by_cases h : i.operand = 0
  · rw [exec_zero s h] at hexec
    cases hexec
    cases hresponse
  · rw [exec_nonzero s h] at hexec
    cases hexec
    rw [giveResult_response] at hresponse
    cases hresponse
    exact ⟨h, rfl⟩

theorem answers_lsb_of_contract {x : U256} {r : Index} (s : State) (h : lsbContract x r) : Answers (.lsb x) s r :=
  answers_iff.2 ⟨ne_zero_of_lsbContract h, lsbRun_r_of_contract h⟩

theorem answers_ctz_of_contract {x : U256} {r : Index} (s : State) (h : lsbContract x r) : Answers (.ctz x) s r :=
  answers_iff.2 ⟨ne_zero_of_lsbContract h, lsbRun_r_of_contract h⟩

/-- LSB answers the index of its contract and no other (R85). -/
theorem answers_lsb_iff {x : U256} {s : State} {r : Index} : Answers (.lsb x) s r ↔ lsbContract x r := by
  refine ⟨fun h => ?_, answers_lsb_of_contract s⟩
  obtain ⟨hx, hr⟩ := answers_iff.1 h
  exact hr ▸ lsbContract_lsbRun hx

/-- Settles O12: the engine's index keeps the contract, which says that bit r is set and that no bit below it is. -/
theorem lsbAnswersItsContract : Obligations.LsbAnswersItsContract := by
  refine fun x s => ⟨fun hx => ?_, fun hx => fails_of_zero s hx⟩
  have hc := lsbContract_lsbRun hx
  obtain ⟨t, hexec, hresponse⟩ := answers_lsb_of_contract s hc
  exact ⟨_, t, hexec, hresponse, hc, ((lsbContract_iff _ _).1 hc).1, fun _ => getLsbD_of_lt_of_lsbContract hc⟩

/-- Settles O13: the engine's index is the algorithm's, and the examples follow from the contract. -/
theorem lsbFollowsTheAlgorithm : Obligations.LsbFollowsTheAlgorithm := by
  refine fun x s => ⟨rfl, fun hx => ?_, fun hx => ?_, fun h => answers_lsb_of_contract s (lsbContract_zero h),
    answers_lsb_iff.trans (lsbContract_255_iff x), answers_lsb_of_contract s lsbContract_example, by decide⟩
  · exact ⟨_, _, exec_nonzero s hx, giveResult_response _ _ s, lsbRun_r_toNat_eq_algorithm x,
      giveResult_lsbTz_msb _ s, giveResult_request _ _ s⟩
  · exact ⟨_, exec_zero s hx, raiseDomainError_response s, raiseDomainError_msb s, raiseDomainError_lsb s,
      raiseDomainError_request s⟩

/-- Settles O16: each listed operand meets the contract with the listed index. -/
theorem lsbEdgeCases : Obligations.LsbEdgeCases := fun s =>
  ⟨answers_lsb_of_contract s (lsbContract_zero (by decide)), by decide,
    answers_lsb_of_contract s (lsbContract_twoPow (by decide)), by decide,
    answers_lsb_of_contract s (lsbContract_zero (by decide)), by decide,
    fun _ hk => answers_lsb_of_contract s (lsbContract_twoPow hk)⟩

/-- Settles O19: both commands give the accumulator of the one engine, and the corner cases meet the contract. -/
theorem ctzAnswersTheLsbIndex : Obligations.CtzAnswersTheLsbIndex := by
  refine fun x s => ⟨rfl, fun hx => ?_, fun hx => ⟨fails_of_zero s hx, fails_of_zero s hx⟩,
    fun h => answers_ctz_of_contract s (lsbContract_zero h),
    fun _ hk => answers_ctz_of_contract s (lsbContract_twoPow hk), answers_ctz_of_contract s (by decide)⟩
  obtain ⟨t, hexec, hresponse⟩ := answers_resultOf (i := .ctz x) s hx
  exact ⟨_, t, answers_resultOf (i := .lsb x) s hx, hexec, hresponse⟩

end Sys2Proof.Machine
end

section
/-! PROOFS. The comparisons, the AND, the constants and the construction from a small integer (R105 to R108, R110 to
R113): each statement from what the primitives are over the natural numbers, or bit by bit. -/

namespace Sys2Proof.Machine

theorem maxU_toNat : maxU.toNat = 2 ^ 256 - 1 := by decide

/-- Two operands are equal when they agree in all 256 bits (R107). -/
theorem eqU_iff_getLsbD (a b : U256) : eqU a b = true ↔ ∀ i : Nat, i < 256 → a.getLsbD i = b.getLsbD i := by
  rw [eqU_iff]
  exact ⟨fun h _ _ => h ▸ rfl, BitVec.eq_of_getLsbD_eq⟩

/-- GT is GE without equality (R106). -/
theorem gtU_eq_geU_and_not_eqU (a b : U256) : gtU a b = (geU a b && !eqU a b) := by
  rw [Bool.eq_iff_iff, Bool.and_eq_true, Bool.not_eq_true', ← Bool.not_eq_true, gtU_iff, geU_iff, eqU_iff,
    ← BitVec.toNat_inj]
  omega

@[simp] theorem geU_self (a : U256) : geU a a = true := (geU_iff a a).2 le_rfl

@[simp] theorem gtU_self (a : U256) : gtU a a = false := by
  rw [← Bool.not_eq_true, gtU_iff]
  exact lt_irrefl _

/-- No operand exceeds MAX (R105). -/
theorem geU_maxU (b : U256) : geU maxU b = true := by
  rw [geU_iff, maxU_toNat]
  exact Nat.le_sub_one_of_lt b.isLt

/-- ZERO exceeds no operand (R106). -/
theorem gtU_zeroU (b : U256) : gtU zeroU b = false := by
  rw [← Bool.not_eq_true, gtU_iff]
  exact Nat.not_lt_zero _

/-- Settles O31: the orders are those of the natural numbers, EQ is extensionality, and the corner cases follow. -/
theorem comparisonsAreUnsigned : Obligations.ComparisonsAreUnsigned := fun a b =>
  ⟨geU_iff a b, gtU_iff a b, gtU_eq_geU_and_not_eqU a b, eqU_iff_getLsbD a b, geU_self a, geU_self zeroU, geU_maxU b,
    by decide, geU_self _, gtU_self a, gtU_zeroU b, by decide⟩

/-- AND with 2^i keeps bit i alone (R108). -/
theorem andU_twoPow (a : U256) (i : Nat) :
    andU a (BitVec.twoPow 256 i) = if a.getLsbD i then BitVec.twoPow 256 i else 0 :=
  BitVec.and_twoPow a i

/-- The limbs of an AND are the ANDs of the limbs: no bit crosses a limb (R108). -/
theorem toLimbs_andU (a b : U256) : toLimbs (andU a b) = andLimbs (toLimbs a) (toLimbs b) := by
  simp [toLimbs, andLimbs, andU, BitVec.extractLsb'_and]

theorem ofLimbs_andLimbs (a b : U256) : ofLimbs (andLimbs (toLimbs a) (toLimbs b)) = andU a b := by
  rw [← toLimbs_andU, ofLimbs_toLimbs]

/-- Settles O32: AND acts on each bit alone, so on a mask, on a single-bit value and on a limb alone. -/
theorem andKeepsCommonBits : Obligations.AndKeepsCommonBits := fun a b =>
  ⟨fun _ _ => BitVec.getLsbD_and, andU_lowMask_toNat a, fun i _ => andU_twoPow a i, BitVec.and_zero,
    BitVec.and_allOnes, BitVec.and_self, by decide, by decide, by decide, ofLimbs_andLimbs a b⟩

/-- MAX shifted right by 256 - w is the mask of width w (R112). -/
theorem shrNat_maxU (w : Width) : shrNat maxU (256 - widthBits w) = .ok (lowMask w) := by
  cases w <;> rfl

/-- Settles O34: the threshold and the mask of each width are the rows of the two tables. -/
theorem constantsHaveTheirValues : Obligations.ConstantsHaveTheirValues :=
  ⟨rfl, rfl, maxU_toNat, fun w => ⟨threshold_toNat w, lowMask_toNat w, shrNat_maxU w⟩⟩

@[simp] theorem fromSmall_toNat (n : Limb) : (fromSmall n).toNat = n.toNat :=
  BitVec.toNat_setWidth_of_le (by decide)

/-- A value below 2^64 stands in limb 0 alone (R113). -/
theorem toLimbs_fromSmall (n : Limb) : toLimbs (fromSmall n) = ⟨n, 0, 0, 0⟩ := by
  have hn : n.toNat < 2 ^ 64 := n.isLt
  apply Limbs.eq_of_toNat_eq
  · rw [toLimbs_l0_toNat, fromSmall_toNat, Nat.mod_eq_of_lt hn]
  · rw [toLimbs_l1_toNat, fromSmall_toNat, Nat.div_eq_of_lt hn]; rfl
  · rw [toLimbs_l2_toNat, fromSmall_toNat, Nat.div_eq_of_lt (hn.trans (by decide))]; rfl
  · rw [toLimbs_l3_toNat, fromSmall_toNat, Nat.div_eq_of_lt (hn.trans (by decide))]; rfl

/-- Settles O35: zero extension keeps the value, and the value's limbs above limb 0 are zero. -/
theorem smallIntegersAreZeroExtended : Obligations.SmallIntegersAreZeroExtended := fun n =>
  ⟨fromSmall_toNat n, toLimbs_fromSmall n⟩

end Sys2Proof.Machine
end

section
/-! PROOFS. Decimal and hexadecimal literals (R114, R115): a literal denotes the base-`b` reading of its digits, or is
refused. One lemma about `readDigits` serves both bases; a base gives its digits and their values. -/

namespace Sys2Proof.Machine

/-- The first character of a string is its most significant digit. -/
theorem ofDigits_map_reverse_cons (b : Nat) (value : Char → Nat) (c : Char) (cs : List Char) :
    Nat.ofDigits b ((c :: cs).reverse.map value) = Nat.ofDigits b (cs.reverse.map value) + b ^ cs.length * value c := by
  simp [Nat.ofDigits_append]

/-- Reading succeeds exactly on digits, and the digits read follow those already in `acc`. -/
theorem readDigits_eq_some_iff {b : Nat} {digit : Char → Option Nat} {isDigit : Char → Prop} {value : Char → Nat}
    (hdigit : ∀ c d, digit c = some d ↔ isDigit c ∧ value c = d) {acc n : Nat} {cs : List Char} :
    readDigits b digit acc cs = some n ↔
      (∀ c ∈ cs, isDigit c) ∧ Nat.ofDigits b (cs.reverse.map value) + b ^ cs.length * acc = n := by
  induction cs generalizing acc with
  | nil => simp [readDigits]
  | cons c cs ih =>
    rw [readDigits]
    cases hc : digit c with
    | none =>
      have hnot : ¬ isDigit c := fun h => Option.some_ne_none _ (((hdigit c _).2 ⟨h, rfl⟩).symm.trans hc)
      simp [hnot]
    | some d =>
      obtain ⟨his, rfl⟩ := (hdigit c d).1 hc
      have hsum : Nat.ofDigits b (cs.reverse.map value) + b ^ cs.length * (acc * b + value c) =
          Nat.ofDigits b ((c :: cs).reverse.map value) + b ^ (c :: cs).length * acc := by
        rw [ofDigits_map_reverse_cons, List.length_cons]
        ring
      rw [ih, hsum, List.forall_mem_cons, and_iff_right his]

/-- A value gives the U256 that holds it, and none when it does not fit (R114). -/
theorem literalValue_eq_ok_iff {v : Option Nat} {x : U256} : literalValue v = .ok x ↔ v = some x.toNat := by
  cases v with
  | none => simp [literalValue]
  | some n =>
    rw [literalValue, Option.some_inj]
    split
    case isTrue h => rw [Except.ok.injEq, ← BitVec.toNat_inj, BitVec.toNat_ofNat, Nat.mod_eq_of_lt h]
    case isFalse h => exact iff_of_false nofun fun hn => h (hn ▸ x.isLt)

/-- A literal with no value is refused in one way only (R114, R115). -/
theorem literalValue_refused {v : Option Nat} (h : ∀ x : U256, literalValue v ≠ .ok x) :
    literalValue v = .error .malformedLiteral := by
  cases v with
  | none => rfl
  | some n => exact if_neg fun hn => h _ (if_pos hn)

theorem decimalDigit_eq_some_iff (c : Char) (d : Nat) :
    decimalDigit c = some d ↔ ('0' ≤ c ∧ c ≤ '9') ∧ c.toNat - 48 = d := by
  simp [decimalDigit]

theorem decimalLiteral_of_ne_nil {cs : List Char} (h : cs ≠ []) :
    decimalLiteral cs = literalValue (readDigits 10 decimalDigit 0 cs) :=
  if_neg h

/-- Settles O36: the empty string is refused, any other is read digit by digit. -/
theorem decimalLiteralsAreReadOrRefused : Obligations.DecimalLiteralsAreReadOrRefused := by
  intro cs
  by_cases h : cs = []
  · subst h
    exact ⟨fun x => iff_of_false nofun fun ⟨hne, _⟩ => hne rfl, fun _ => rfl⟩
  · rw [decimalLiteral_of_ne_nil h]
    refine ⟨fun x => ?_, literalValue_refused⟩
    rw [literalValue_eq_ok_iff, readDigits_eq_some_iff decimalDigit_eq_some_iff, mul_zero, add_zero, and_iff_right h]

/-- The characters of a hexadecimal literal (R115). -/
def IsHexDigit (c : Char) : Prop :=
  ('0' ≤ c ∧ c ≤ '9') ∨ ('a' ≤ c ∧ c ≤ 'f') ∨ ('A' ≤ c ∧ c ≤ 'F')

/-- The value of a hexadecimal digit by the order of the characters: `9` is before `A` and `F` before `a`. -/
def hexDigitValue (c : Char) : Nat :=
  if c ≤ '9' then c.toNat - 48 else if c ≤ 'F' then c.toNat - 55 else c.toNat - 87

theorem char_le_iff_toNat (c d : Char) : c ≤ d ↔ c.toNat ≤ d.toNat := by
  rw [Char.le_def, UInt32.le_iff_toNat_le]
  rfl

/-- The three ranges of digits do not meet, so it does not matter in which order they are tested. -/
theorem hexDigit_eq_some_iff (c : Char) (d : Nat) : hexDigit c = some d ↔ IsHexDigit c ∧ hexDigitValue c = d := by
  simp only [hexDigit, IsHexDigit, hexDigitValue, char_le_iff_toNat, Char.reduceToNat]
  split
  case isTrue hdec => rw [Option.some_inj, if_pos hdec.2]; omega
  case isFalse hdec =>
    split
    case isTrue hlower => rw [Option.some_inj, if_neg (by omega), if_neg (by omega)]; omega
    case isFalse hlower =>
      split
      case isTrue hupper => rw [Option.some_inj, if_neg (by omega), if_pos (by omega)]; omega
      case isFalse hupper => exact iff_of_false nofun (by omega)

theorem hexLiteral_of_length {cs : List Char} (h : 1 ≤ cs.length ∧ cs.length ≤ 64) :
    hexLiteral cs = literalValue (readDigits 16 hexDigit 0 cs) :=
  if_neg (by rw [← List.length_eq_zero_iff]; omega)

theorem hexLiteral_of_not_length {cs : List Char} (h : ¬ (1 ≤ cs.length ∧ cs.length ≤ 64)) :
    hexLiteral cs = .error .malformedLiteral :=
  if_pos (by rw [← List.length_eq_zero_iff]; omega)

/-- A hexadecimal literal denotes the base-sixteen reading of 1 to 64 digits (R115). -/
theorem hexLiteral_eq_ok_iff {cs : List Char} {x : U256} :
    hexLiteral cs = .ok x ↔ 1 ≤ cs.length ∧ cs.length ≤ 64 ∧ (∀ c ∈ cs, IsHexDigit c) ∧
      Nat.ofDigits 16 (cs.reverse.map hexDigitValue) = x.toNat := by
  rw [← and_assoc]
  by_cases h : 1 ≤ cs.length ∧ cs.length ≤ 64
  · rw [hexLiteral_of_length h, literalValue_eq_ok_iff, readDigits_eq_some_iff hexDigit_eq_some_iff, mul_zero,
      add_zero, and_iff_right h]
  · exact iff_of_false (by rw [hexLiteral_of_not_length h]; nofun) fun ⟨hlength, _⟩ => h hlength

theorem hexLiteral_refused {cs : List Char} (h : ∀ x : U256, hexLiteral cs ≠ .ok x) :
    hexLiteral cs = .error .malformedLiteral := by
  by_cases hlength : 1 ≤ cs.length ∧ cs.length ≤ 64
  · rw [hexLiteral_of_length hlength] at h ⊢
    exact literalValue_refused h
  · exact hexLiteral_of_not_length hlength

/-- Settles O37: after `0x` the literal is read by `hexLiteral`, whose digits and values are those of the statement. -/
theorem hexLiteralsAreReadOrRefused : Obligations.HexLiteralsAreReadOrRefused := fun _ =>
  ⟨fun _ => hexLiteral_eq_ok_iff, hexLiteral_refused⟩

end Sys2Proof.Machine
end

section
/-! PROOFS. The properties of every result (R135 to R142, R189). The two contracts say that both indices are of set bits
and that every set bit stands between them; the properties follow from the contracts alone. -/

namespace Sys2Proof.Machine

/-- A property of the two indices that follows from their contracts is one of the indices MSB and LSB answer. -/
theorem exists_answers_of_contracts {x : U256} {P : Index → Index → Prop} (s : State) (h : x ≠ 0)
    (hP : ∀ m l : Index, msbContract x m → lsbContract x l → P m l) :
    ∃ m l : Index, Answers (.msb x) s m ∧ Answers (.lsb x) s l ∧ P m l :=
  have hm := msbContract_msbRun h
  have hl := lsbContract_lsbRun h
  ⟨_, _, answers_msb_of_contract s hm, answers_lsb_of_contract s hl, hP _ _ hm hl⟩

/-- The index of the contract is that of a set bit (R65). -/
theorem getLsbD_of_msbContract {x : U256} {m : Index} (h : msbContract x m) : x.getLsbD m.toNat = true :=
  Nat.testBit_of_two_pow_le_and_two_pow_add_one_gt h.1 h.2

/-- Every bit above an index of the contract is clear (R65). -/
theorem getLsbD_of_msbContract_of_lt {x : U256} {m : Index} (h : msbContract x m) {j : Nat} (hj : m.toNat < j) :
    x.getLsbD j = false :=
  Nat.testBit_eq_false_of_lt (h.2.trans_le (Nat.pow_le_pow_right (by decide) hj))

theorem getLsbD_of_lsbContract {x : U256} {l : Index} (h : lsbContract x l) : x.getLsbD l.toNat = true :=
  ((lsbContract_iff x l).1 h).1

/-- No set bit stands above the most significant index. -/
theorem le_of_msbContract {x : U256} {m : Index} (h : msbContract x m) {j : Nat} (hj : x.getLsbD j = true) :
    j ≤ m.toNat := by
  by_contra hlt
  exact Bool.false_ne_true ((getLsbD_of_msbContract_of_lt h (Nat.not_le.1 hlt)).symm.trans hj)

/-- No set bit stands below the least significant index. -/
theorem le_of_lsbContract {x : U256} {l : Index} (h : lsbContract x l) {j : Nat} (hj : x.getLsbD j = true) :
    l.toNat ≤ j := by
  by_contra hlt
  exact Bool.false_ne_true ((getLsbD_of_lt_of_lsbContract h (Nat.not_le.1 hlt)).symm.trans hj)

/-- Settles O21: the bound is the contract, and at index 255 its second comparison is with 2^256, which is 0. -/
theorem msbBoundWithGuard : Obligations.MsbBoundWithGuard := by
  intro x s hx
  have hc := msbContract_msbRun hx
  refine ⟨_, answers_msb_of_contract s hc, (msbBound_iff x _).2 hc, msbBound_iff x, fun h255 => ?_, belowU_zero⟩
  have hwidth : powU ((msbRun x).r.toNat + 1) = zeroU := by rw [h255]; exact powU_width
  rw [hwidth, gtU_zeroU]

/-- Settles O22: the bit at the least significant index is set, so it does not stand above the most significant. -/
theorem lsbIsAtMostMsb : Obligations.LsbIsAtMostMsb := fun _ s hx =>
  exists_answers_of_contracts s hx fun m _ hm hl =>
    ⟨le_of_msbContract hm (getLsbD_of_lsbContract hl), Nat.le_of_lt_succ m.isLt⟩

/-- Every set bit stands between the two indices, so they are equal when there is one (R139). -/
theorem eq_iff_existsUnique_getLsbD {x : U256} {m l : Index} (hm : msbContract x m) (hl : lsbContract x l) :
    m = l ↔ ∃! i : Fin 256, x.getLsbD i.val = true := by
  constructor
  · rintro rfl
    refine ⟨⟨m.toNat, m.isLt⟩, getLsbD_of_msbContract hm, fun i hi => Fin.ext ?_⟩
    exact Nat.le_antisymm (le_of_msbContract hm hi) (le_of_lsbContract hl hi)
  · intro hunique
    have hfin : (⟨m.toNat, m.isLt⟩ : Fin 256) = ⟨l.toNat, l.isLt⟩ :=
      hunique.unique (getLsbD_of_msbContract hm) (getLsbD_of_lsbContract hl)
    exact BitVec.eq_of_toNat_eq (Fin.ext_iff.1 hfin)

/-- A multiple of 2^m from 2^m up to below 2^(m+1) is 2^m, and each power of two has its exponent as both indices
(R139). -/
theorem eq_iff_exists_two_pow {x : U256} {m l : Index} (hm : msbContract x m) (hl : lsbContract x l) :
    m = l ↔ ∃ i : Nat, x.toNat = 2 ^ i := by
  constructor
  · rintro rfl
    obtain ⟨c, hc⟩ := ((lsbContract_iff_dvd x m).1 hl).1
    obtain ⟨hle, hlt⟩ := hm
    have hpos : 0 < 2 ^ m.toNat := Nat.two_pow_pos _
    rw [hc] at hle hlt
    have hlow : 1 ≤ c := Nat.le_of_mul_le_mul_left (by rwa [Nat.mul_one]) hpos
    have hhigh : c < 2 := Nat.lt_of_mul_lt_mul_left hlt
    have hone : c = 1 := by omega
    exact ⟨m.toNat, by rw [hc, hone, Nat.mul_one]⟩
  · rintro ⟨i, hi⟩
    have hlt : i < 256 := (Nat.pow_lt_pow_iff_right (by decide)).1 (hi ▸ x.isLt)
    have hx : x = BitVec.twoPow 256 i := BitVec.eq_of_toNat_eq (hi.trans (powU_toNat hlt).symm)
    subst hx
    calc m = (msbRun (BitVec.twoPow 256 i)).r := (msbRun_r_of_contract hm).symm
      _ = BitVec.ofNat 8 i := msbRun_r_of_contract (msbContract_twoPow hlt)
      _ = (lsbRun (BitVec.twoPow 256 i)).r := (lsbRun_r_of_contract (lsbContract_twoPow hlt)).symm
      _ = l := lsbRun_r_of_contract hl

/-- Settles O23: equal indices leave room for one set bit only, and an operand with one is its power of two. -/
theorem indicesEqualIffPowerOfTwo : Obligations.IndicesEqualIffPowerOfTwo := fun _ s hx =>
  exists_answers_of_contracts s hx fun _ _ hm hl =>
    ⟨eq_iff_existsUnique_getLsbD hm hl, eq_iff_exists_two_pow hm hl⟩

/-- An index less an amount is an index. -/
theorem toNat_ofNat_sub (r : Index) (k : Nat) : (BitVec.ofNat 8 (r.toNat - k)).toNat = r.toNat - k :=
  Nat.mod_eq_of_lt ((Nat.sub_le _ _).trans_lt r.isLt)

/-- A shift by k divides the powers of two that divide the operand by 2^k. -/
theorem two_pow_sub_dvd_div_iff {n j k : Nat} (hn : 2 ^ k ∣ n) (hk : k ≤ j) :
    2 ^ (j - k) ∣ n / 2 ^ k ↔ 2 ^ j ∣ n := by
  rw [Nat.dvd_div_iff_mul_dvd hn, ← Nat.pow_add, Nat.add_sub_cancel' hk]

/-- A shift by at most the least significant index lowers that index by its amount (R140). -/
theorem lsbContract_shrU {x : U256} {l : Index} {k : Fin 256} (hl : lsbContract x l) (hk : k.val ≤ l.toNat) :
    lsbContract (shrU x k) (BitVec.ofNat 8 (l.toNat - k.val)) := by
  rw [lsbContract_iff_dvd] at hl ⊢
  have hdvd : 2 ^ k.val ∣ x.toNat := (pow_dvd_pow 2 hk).trans hl.1
  rwa [toNat_ofNat_sub, shrU_toNat, ← Nat.sub_add_comm hk, two_pow_sub_dvd_div_iff hdvd hk,
    two_pow_sub_dvd_div_iff hdvd (Nat.le_succ_of_le hk)]

/-- A shift by at most the most significant index lowers that index by its amount (R140). -/
theorem msbContract_shrU {x : U256} {m : Index} {k : Fin 256} (hm : msbContract x m) (hk : k.val ≤ m.toNat) :
    msbContract (shrU x k) (BitVec.ofNat 8 (m.toNat - k.val)) := by
  have hpos : 0 < 2 ^ k.val := Nat.two_pow_pos _
  rwa [msbContract, toNat_ofNat_sub, shrU_toNat, ← Nat.sub_add_comm hk, Nat.le_div_iff_mul_le hpos,
    Nat.div_lt_iff_lt_mul hpos, ← Nat.pow_add, ← Nat.pow_add, Nat.sub_add_cancel hk,
    Nat.sub_add_cancel (Nat.le_succ_of_le hk)]

/-- Settles O24: the shifted operand meets both contracts with the lowered indices. -/
theorem shiftLowersBothIndices : Obligations.ShiftLowersBothIndices := fun _ s hx =>
  exists_answers_of_contracts s hx fun _ _ hm hl _ _ hk =>
    ⟨answers_lsb_of_contract s (lsbContract_shrU hl hk),
      answers_msb_of_contract s
        (msbContract_shrU hm (hk.trans (le_of_msbContract hm (getLsbD_of_lsbContract hl))))⟩

/-- Settles O25: 2^i meets both contracts with index i; all ones have bit 255 and bit 0 set. -/
theorem singleBitAndAllOnesIndices : Obligations.SingleBitAndAllOnesIndices :=
  ⟨fun _ s hi => ⟨answers_msb_of_contract s (msbContract_twoPow hi), answers_lsb_of_contract s (lsbContract_twoPow hi)⟩,
    fun s => ⟨answers_msb_of_contract s (msbContract_of_two_pow_255_le (by decide)),
      answers_lsb_of_contract s (lsbContract_zero (by decide))⟩⟩

end Sys2Proof.Machine
end

section
/-! PROOFS. The naive scan (R144): it is a search for the first set bit in ascending order and one in descending order,
and the two searches end at the indices of the contracts. -/

namespace Sys2Proof.Machine

/-- The scan of a list of positions keeps a first set bit it has, else finds the list's; its last set bit is the list's,
else the one it has. -/
theorem foldl_scanBit (x : U256) (js : List Nat) (found : Option Nat × Option Nat) :
    js.foldl (scanBit x) found = (found.1.or (js.find? x.getLsbD), (js.reverse.find? x.getLsbD).or found.2) := by
  induction js generalizing found with
  | nil => simp
  | cons j js ih =>
    obtain ⟨first, last⟩ := found
    rw [List.foldl_cons, ih, List.reverse_cons, List.find?_append, List.find?_cons, List.find?_singleton, scanBit]
    cases hj : x.getLsbD j with
    | false => simp
    | true => cases first <;> simp

theorem naiveScan_eq_find (x : U256) :
    naiveScan x = ((List.range 256).find? x.getLsbD, (List.range 256).reverse.find? x.getLsbD) := by
  rw [naiveScan, foldl_scanBit, Option.none_or, Option.or_none]

/-- The ascending search ends at the least significant index. -/
theorem find_range_of_lsbContract {x : U256} {l : Index} (h : lsbContract x l) :
    (List.range 256).find? x.getLsbD = some l.toNat := by
  rw [List.find?_range_eq_some]
  exact ⟨getLsbD_of_lsbContract h, List.mem_range.2 l.isLt, fun j hj => by rw [getLsbD_of_lt_of_lsbContract h hj]; rfl⟩

/-- The descending search from any position above the most significant index ends there. -/
theorem find_reverse_range_of_msbContract {x : U256} {m : Index} (h : msbContract x m) {n : Nat} (hn : m.toNat < n) :
    (List.range n).reverse.find? x.getLsbD = some m.toNat := by
  induction n with
  | zero => exact absurd hn (Nat.not_lt_zero _)
  | succ n ih =>
    rw [List.range_succ, List.reverse_append, List.reverse_singleton, List.singleton_append]
    rcases Nat.lt_succ_iff_lt_or_eq.1 hn with hlt | heq
    · rw [List.find?_cons_of_neg (by rw [getLsbD_of_msbContract_of_lt h hlt]; exact Bool.false_ne_true), ih hlt]
    · rw [← heq, List.find?_cons_of_pos (getLsbD_of_msbContract h)]

/-- Settles O26: the first set bit the scan meets is at LSB's index and the last at MSB's. -/
theorem enginesAgreeWithTheNaiveScan : Obligations.EnginesAgreeWithTheNaiveScan := fun x s hx =>
  exists_answers_of_contracts s hx fun m _ hm hl => by
    rw [naiveScan_eq_find, find_range_of_lsbContract hl, find_reverse_range_of_msbContract hm m.isLt]

end Sys2Proof.Machine
end

section
/-! PROOFS. The fault mark of a run (R172): the environment sets it for a response with `err = 1` that a step adds to
the record, and what the block answers does not depend on it. -/

namespace Sys2Proof.Machine

@[simp] theorem finishOperation_record (op : Running) (s : State) :
    (finishOperation op s).record =
      s.record ++ [.ok (viewOf op.cmd
        (finishStages (engineOf op.cmd) op.stage (engineRegs (engineOf op.cmd) s)).r)] :=
  giveResult_record _ _ s

/-- An operation in progress is on a nonzero operand, so completing it marks nothing (R156, R162). -/
@[simp] theorem finishOperation_faultMark (op : Running) (s : State) :
    (finishOperation op s).faultMark = s.faultMark :=
  giveResult_faultMark _ _ s

/-- A step adds to the record the responses it gives, and sets the mark when one of them has `err = 1` (R172). -/
theorem step_marks_given_errors {s t : State} (h : step s = .next t) :
    ∃ given : List Response, t.record = s.record ++ given ∧ t.faultMark = (s.faultMark || given.any errBit) := by
  obtain ⟨-, rfl⟩ | ⟨op, -, -, rfl⟩ | ⟨-, -, -, rfl⟩ | ⟨w, -, -, -, -, rfl⟩ | ⟨w, -, -, -, -, rfl⟩ := step_cases h
  · exact ⟨[], by simp⟩
  · exact ⟨_, finishOperation_record op s, by simp [errBit]⟩
  · exact ⟨[], by simp⟩
  · exact ⟨[.domainError], by simp [errBit]⟩
  · exact ⟨[.ok (resultOf (decode w))], by simp [errBit]⟩

/-- Settles O44: the mark after a step is the mark before it or-ed with the errors given, and a ready block answers
`responseOf` of the request under either mark. -/
theorem faultMarkIsNeverCleared : Obligations.FaultMarkIsNeverCleared := by
  refine ⟨fun s t _ hstep => ?_, fun s w mark hs => ?_⟩
  · obtain ⟨given, hrecord, hmark⟩ := step_marks_given_errors hstep
    exact ⟨⟨given, hrecord, hmark⟩, fun hset => by rw [hmark, hset, Bool.true_or]⟩
  · obtain ⟨t, ht, -, hresponse, -⟩ := serve_answers_responseOf w hs
    obtain ⟨u, hu, -, hresponse', -⟩ := serve_answers_responseOf w (s := { s with faultMark := mark }) hs
    exact ⟨t, u, responseOf w, ht, hu, hresponse, hresponse'⟩

end Sys2Proof.Machine
end

section
/-! PROOFS. What the domain error does to the block (R156, R158), read off the rules of `raiseDomainError`. -/

namespace Sys2Proof.Machine

/-- Bit 8 of the word at the interface is the `err` bit of the response that stands there (R46). -/
theorem responseWord_getLsbD_eight {s : State} {rsp : Response} (h : s.response = some rsp) :
    ∃ word : RspWord, responseWord s = some word ∧ word.getLsbD 8 = errBit rsp := by
  refine ⟨responseWordOf (Config.errIndex s.draws) rsp, ?_, responseWordOf_getLsbD_eight _ rsp⟩
  rw [responseWord, h, Option.map_some]

/-- Settles O40: a command on zero raises the domain error, whose frame is the rest of the block. -/
theorem domainErrorEntryAndFrame : Obligations.DomainErrorEntryAndFrame := fun _ s h =>
  ⟨raiseDomainError s, exec_zero s h, raiseDomainError_response s, raiseDomainError_running s, raiseDomainError_msb s,
    raiseDomainError_lsb s, raiseDomainError_request s, raiseDomainError_resetIn s,
    responseWord_getLsbD_eight (raiseDomainError_response s)⟩

end Sys2Proof.Machine
end

section
/-! PROOFS. There is no other failure (R161): no word is refused, no stage shift is out of range, and every command
completes. -/

namespace Sys2Proof

/-- A request word is read from its own number: what stands above the operand's 256 bits is the `op` field (R45). -/
@[simp] theorem requestWord_toNat (w : ReqWord) : requestWord w.toNat = .ok w := by
  have hop : BitVec.ofNat 2 (w.toNat / 2 ^ 256) = opField w := by
    rw [opField, BitVec.extractLsb', Nat.shiftRight_eq_div_pow]
  have hoperand : BitVec.ofNat 256 w.toNat = operandField w := by
    rw [operandField, BitVec.extractLsb', Nat.shiftRight_zero]
  rw [requestWord, if_pos (requestNumberWf_toNat w), hop, hoperand, opField_append_operandField]

end Sys2Proof

namespace Sys2Proof.Machine

/-- A shift by less than the operand's width has a result (R109). -/
theorem shrNat_of_lt (a : U256) {n : Nat} (h : n < 256) : shrNat a n = .ok (shrU a ⟨n, h⟩) :=
  dif_pos h

/-- No stage shifts by the operand's width or more (R51). -/
theorem widthBits_lt (w : Width) : widthBits w < 256 := by
  rw [← widthShift_val]
  exact (widthShift w).isLt

/-- Settles O42: `exec` has a next state by its equation, and a result on a nonzero operand; a word's number is in
range and a stage width is below 256. -/
theorem noOtherFailure : Obligations.NoOtherFailure :=
  ⟨fun i s => ⟨⟨_, exec_eq i s⟩, fun h => ⟨_, answers_resultOf s h⟩⟩, requestWord_toNat,
    fun a w => ⟨_, shrNat_of_lt a (widthBits_lt w)⟩⟩

end Sys2Proof.Machine
end

section
/-! PROOFS. Decoding and encoding undo each other (R55), and which numbers are request words (R45, log 12). -/

namespace Sys2Proof

set_option exponentiation.threshold 258

/-- The fields of an encoded command select the decoding line it came from (R55). -/
@[simp] theorem decode_encode (i : Instr) : decode (encode i) = i := by
  cases i <;> simp [decode, opField_encode, operandField_encode, opCode, Instr.operand]

/-- Settles O1: a word is its two fields, and the decoder's lines invert the operation codes. -/
theorem decodeAndEncodeAreInverse : Obligations.DecodeAndEncodeAreInverse :=
  ⟨fun i _ => decode_encode i, encode_decode⟩

/-- A number of the right form is the value of the command it decodes to (R45). -/
theorem exists_toNat_encode_of_requestNumberWf {n : Nat} (h : requestNumberWf n = true) :
    ∃ i : Instr, n = (encode i).toNat := by
  have hdiv : n / 2 ^ 256 < 2 ^ 2 := of_decide_eq_true h
  have hn : n < 2 ^ 258 := (Nat.div_lt_iff_lt_mul (Nat.two_pow_pos 256)).1 hdiv
  refine ⟨decode (BitVec.ofNat 258 n), ?_⟩
  rw [encode_decode, BitVec.toNat_ofNat, Nat.mod_eq_of_lt hn]

/-- A number that no command encodes to is rejected by name (log 12). -/
theorem requestWord_rejected {n : Nat} (h : ∀ i : Instr, n ≠ (encode i).toNat) :
    requestWord n = .error .widerThanRequest := by
  refine if_neg fun hwf => ?_
  obtain ⟨i, hi⟩ := exists_toNat_encode_of_requestNumberWf hwf
  exact h i hi

/-- Settles O5: a request word's number is read back as the word, and only such numbers have the right form. -/
theorem numberedWordsDecodeOrAreRejected : Obligations.NumberedWordsDecodeOrAreRejected := by
  refine fun n => ⟨fun i hi => ?_, fun h => ?_⟩
  · have hword : requestWord n = .ok (encode i) := hi ▸ requestWord_toNat (encode i)
    exact ⟨hword, by rw [decodeTableWord, hword]; exact congrArg some (decode_encode i)⟩
  · have hword := requestWord_rejected h
    exact ⟨hword, by rw [decodeTableWord, hword]⟩

/-- Settles O4: the eight printed words, evaluated. -/
theorem printedRequestWordsDecode : Obligations.PrintedRequestWordsDecode := by
  unfold Obligations.PrintedRequestWordsDecode
  decide

end Sys2Proof
end

section
/-! PROOFS. What every step keeps: the environment's record in order (R160, R172), and the registers of an operation in
progress those of its stages so far (R13, R14, R16, R156). -/

namespace Sys2Proof.Machine

/-- A result added to the record and left standing keeps the record in order: it marks nothing. -/
theorem recordInv_giveResult {s : State} (h : RecordInv s) (e : Engine) (r : Index) :
    RecordInv (giveResult e r s) := by
  obtain ⟨hmark, -⟩ := h
  simp [RecordInv, hmark, errBit]

/-- A domain error is added to the record and marks the run. -/
theorem recordInv_raiseDomainError (s : State) : RecordInv (raiseDomainError s) := by
  simp [RecordInv, errBit]

/-- With no response standing, the record is in order when the mark is. -/
theorem recordInv_of_no_response {s : State} (hmark : s.faultMark = s.record.any errBit) (h : s.response = none) :
    RecordInv s :=
  ⟨hmark, .inl h⟩

/-- Settles O57: each thing a step can do to record, mark and response keeps them in order. -/
theorem recordStaysInOrder : Obligations.RecordStaysInOrder := by
  intro s t hs hstep
  have ⟨hmark, _⟩ := hs
  have htake : RecordInv (takeRequest s) := recordInv_of_no_response hmark rfl
  obtain ⟨-, rfl⟩ | ⟨op, -, -, rfl⟩ | ⟨-, -, -, rfl⟩ | ⟨w, -, -, -, -, rfl⟩ | ⟨w, -, -, -, -, rfl⟩ := step_cases hstep
  · exact recordInv_of_no_response hmark rfl
  · exact recordInv_giveResult hs _ _
  · exact hs
  · exact recordInv_raiseDomainError _
  · exact recordInv_giveResult htake _ _

/-- The invariant of the operation in progress asks nothing of an idle block. -/
theorem inFlightInv_of_idle {s : State} (h : s.running = none) : InFlightInv s :=
  fun _ hop => absurd (h.symm.trans hop) (Option.some_ne_none _).symm

/-- The start of an operation leaves the block idle on zero, and loaded for stage 0 on any other operand (R156, R181). -/
theorem inFlightInv_startOperation (c : Command) (x : U256) (s : State) : InFlightInv (startOperation c x s) := by
  by_cases hx : x = 0
  · subst hx
    rw [startOperation_zero]
    exact inFlightInv_of_idle rfl
  · rw [startOperation_nonzero c s hx]
    rintro _ ⟨⟩
    refine ⟨x, hx, ?_⟩
    rw [engineRegs_with_running, engineRegs_setEngineRegs]
    cases c <;> rfl

/-- A stage before the last is followed by the number of the next. -/
theorem stage_succ_val {k : Fin 8} (h : k ≠ 7) : (k + 1).val = k.val + 1 := by
  revert k
  decide

/-- A stage tick runs the stage the operation is at, or ends the operation (R16, R51). -/
theorem inFlightInv_stageTick {s : State} {op : Running} (h : InFlightInv s) (hrun : s.running = some op) :
    InFlightInv (stageTick op s) := by
  by_cases h7 : op.stage = 7
  · rw [stageTick_seven s h7]
    exact inFlightInv_of_idle (giveResult_running _ _ s)
  · obtain ⟨x, hx, hregs⟩ := h op hrun
    rw [stageTick_of_ne s h7]
    rintro _ ⟨⟩
    refine ⟨x, hx, ?_⟩
    rw [engineRegs_with_running, engineRegs_setEngineRegs, hregs, stage_succ_val h7, engineAfter_succ]

theorem inFlightInv_tick {s : State} (h : InFlightInv s) : InFlightInv (tick s) := by
  cases hres : s.resetIn with
  | true =>
    rw [tick_in_reset hres]
    exact inFlightInv_of_idle rfl
  | false =>
    cases hrun : s.running with
    | some op =>
      rw [tick_running hres hrun]
      exact inFlightInv_stageTick h hrun
    | none =>
      cases hq : s.request with
      | none => rwa [tick_idle hres hrun hq]
      | some w =>
        rw [tick_request hres hrun hq]
        exact inFlightInv_startOperation _ _ _

/-- No step leaves an operation in progress (R162, R168). -/
theorem step_running_eq_none {s t : State} (h : step s = .next t) : t.running = none := by
  obtain ⟨-, rfl⟩ | ⟨op, -, -, rfl⟩ | ⟨-, hrun, -, rfl⟩ | ⟨w, -, -, -, -, rfl⟩ | ⟨w, -, -, -, -, rfl⟩ := step_cases h
  · rfl
  · exact giveResult_running _ _ s
  · exact hrun
  · rfl
  · exact giveResult_running _ _ _

/-- Settles O59: a tick runs one stage more, and a step leaves no operation in progress. -/
theorem operationInProgressStaysItsStages : Obligations.OperationInProgressStaysItsStages := fun _ h =>
  ⟨inFlightInv_tick h, fun _ hstep => inFlightInv_of_idle (step_running_eq_none hstep)⟩

/-- Settles O58: right after reset there is no response, no record and no operation in progress. -/
theorem recordAndOperationInvariantsAtReset : Obligations.RecordAndOperationInvariantsAtReset :=
  ⟨recordInv_of_no_response rfl reset_response, reset_running, inFlightInv_of_idle reset_running⟩

end Sys2Proof.Machine
end

section
/-! PROOFS. The registers of the two engines between the halving stages (R69, R89, R117): each engine keeps a window of
low bits that a stage halves, and its accumulator counts the places that are settled. -/

namespace Sys2Proof.Machine

/-- What holds of the MSB engine's registers when `v` low bits of `X` are still to be searched (R69). -/
structure MsbWindow (x : U256) (v : Nat) (e : WorkRegs) : Prop where
  shifted : e.x.toNat = x.toNat / 2 ^ e.r.toNat
  pos : x ≠ 0 → 1 ≤ e.x.toNat
  lt : e.x.toNat < 2 ^ v
  dvd : v ∣ e.r.toNat
  le : e.r.toNat + v ≤ 256

theorem msbWindow_load (x : U256) : MsbWindow x 256 (msbLoad x) where
  shifted := (Nat.div_one _).symm
  pos h := Nat.one_le_iff_ne_zero.2 (toNat_ne_zero h)
  lt := x.isLt
  dvd := dvd_zero _
  le := Nat.le_refl _

/-- The addition of a halving stage fits eight bits (R117). -/
theorem toNat_add_widthIndex {r : Index} {w : Width} (h : r.toNat + widthBits w ≤ 255) :
    (r + widthIndex w).toNat = r.toNat + widthBits w := by
  rw [BitVec.toNat_add, widthIndex_toNat, Nat.mod_eq_of_lt (Nat.lt_succ_of_le h)]

theorem widthBits_pos (w : Width) : 0 < widthBits w := by
  cases w <;> decide

/-- A halving stage leaves the upper half of the window, shifted down, when it has a set bit, and else the lower half
(R67, R69). -/
theorem MsbWindow.halve {x : U256} {w : Width} {e : WorkRegs} (h : MsbWindow x (widthBits w + widthBits w) e) :
    MsbWindow x (widthBits w) (msbHalve w e) := by
  have hpos := widthBits_pos w
  have hle := h.le
  have hdvd : widthBits w ∣ e.r.toNat := (dvd_add dvd_rfl dvd_rfl).trans h.dvd
  rcases Nat.lt_or_ge e.x.toNat (2 ^ widthBits w) with hx | hx
  · rw [msbHalve_of_lt hx]
    exact ⟨h.shifted, h.pos, hx, hdvd, by omega⟩
  · have hr := toNat_add_widthIndex (r := e.r) (w := w) (by omega)
    have hdiv : (shrU e.x (widthShift w)).toNat = e.x.toNat / 2 ^ widthBits w := by rw [shrU_toNat, widthShift_val]
    rw [msbHalve_of_le hx]
    refine ⟨?_, fun _ => ?_, ?_, ?_, ?_⟩ <;> simp only [hr, hdiv]
    · rw [h.shifted, Nat.div_div_eq_div_mul, ← Nat.pow_add]
    · exact Nat.div_pos hx (Nat.two_pow_pos _)
    · exact Nat.div_lt_of_lt_mul (by rw [← Nat.pow_add]; exact h.lt)
    · exact dvd_add hdvd dvd_rfl
    · omega

/-- What holds of the LSB engine's registers when the lowest set bit is to be found among `v` low bits of `X`, after a
total shift of `sh` (R89). -/
structure LsbShifted (x : U256) (v sh : Nat) (e : WorkRegs) : Prop where
  shifted : x.toNat = e.x.toNat * 2 ^ sh
  low : x ≠ 0 → e.x.toNat % 2 ^ v ≠ 0
  sum : e.r.toNat + 1 = v + sh

theorem lsbShifted_load (x : U256) : LsbShifted x 256 0 (lsbLoad x) where
  shifted := (Nat.mul_one _).symm
  low h := by
    rw [lsbLoad, Nat.mod_eq_of_lt x.isLt]
    exact toNat_ne_zero h
  sum := rfl

/-- The subtraction of a halving stage does not go below zero (R117). -/
theorem toNat_sub_widthIndex {r : Index} {w : Width} (h : widthBits w ≤ r.toNat) :
    (r - widthIndex w).toNat = r.toNat - widthBits w := by
  rw [BitVec.toNat_sub_of_le (BitVec.le_def.2 (by rwa [widthIndex_toNat])), widthIndex_toNat]

/-- A halving stage leaves the lower half of the window when it has a set bit, and else the upper half, shifted down
(R87, R89). -/
theorem LsbShifted.halve {x : U256} {w : Width} {sh : Nat} {e : WorkRegs}
    (h : LsbShifted x (widthBits w + widthBits w) sh e) :
    ∃ sh', LsbShifted x (widthBits w) sh' (lsbHalve w e) := by
  have hpos := widthBits_pos w
  have hsum := h.sum
  by_cases hx : e.x.toNat % 2 ^ widthBits w = 0
  · have hdiv : (shrU e.x (widthShift w)).toNat = e.x.toNat / 2 ^ widthBits w := by rw [shrU_toNat, widthShift_val]
    rw [lsbHalve_of_mod_eq hx]
    refine ⟨widthBits w + sh, ?_, fun h0 => ?_, ?_⟩ <;> simp only [hdiv]
    · rw [Nat.pow_add, ← Nat.mul_assoc, Nat.div_mul_cancel (Nat.dvd_of_mod_eq_zero hx)]
      exact h.shifted
    · intro hhigh
      refine h.low h0 ?_
      rw [Nat.pow_add, Nat.mod_mul, hx, hhigh, Nat.mul_zero]
    · omega
  · rw [lsbHalve_of_mod_ne hx]
    refine ⟨sh, h.shifted, fun _ => hx, ?_⟩
    simp only [toNat_sub_widthIndex (r := e.r) (w := w) (by omega)]
    omega

/-- The window before a stage is twice its width. -/
theorem two_pow_eq_add_stageWidth (k : Fin 8) :
    2 ^ (8 - k.val) = widthBits (stageWidth k) + widthBits (stageWidth k) := by
  revert k
  decide

/-- A property that holds of the load with the whole width, and that each halving stage carries to the next width, holds
after `n` halving stages with the width of stage `n - 1`. -/
theorem after_halving_stages {P : Nat → WorkRegs → Prop} {after : Nat → WorkRegs} {halve : Width → WorkRegs → WorkRegs}
    (hload : P 256 (after 0))
    (hafter : ∀ k : Fin 8, k ≠ 7 → after (k.val + 1) = halve (stageWidth k) (after k.val))
    (hhalve : ∀ w e, P (widthBits w + widthBits w) e → P (widthBits w) (halve w e)) {n : Nat} (hn : n ≤ 7) :
    P (2 ^ (8 - n)) (after n) := by
  induction n with
  | zero => exact hload
  | succ n ih =>
    obtain ⟨k, rfl⟩ : ∃ k : Fin 8, k.val = n := ⟨⟨n, by omega⟩, rfl⟩
    have hwidth : 2 ^ (8 - (k.val + 1)) = widthBits (stageWidth k) := by
      rw [stageWidth_bits, Nat.add_sub_add_right 7 1]
    rw [hwidth, hafter k (Fin.ne_of_lt hn)]
    exact hhalve _ _ (two_pow_eq_add_stageWidth k ▸ ih (by omega))

theorem msbWindow_after (x : U256) {n : Nat} (hn : n ≤ 7) : MsbWindow x (2 ^ (8 - n)) (msbAfter x n) :=
  after_halving_stages (P := MsbWindow x) (msbWindow_load x)
    (fun k hk => (msbAfter_succ x k).trans (msbStage_of_ne hk _)) (fun _ _ => MsbWindow.halve) hn

theorem lsbShifted_after (x : U256) {n : Nat} (hn : n ≤ 7) : ∃ sh, LsbShifted x (2 ^ (8 - n)) sh (lsbAfter x n) :=
  after_halving_stages (P := fun v e => ∃ sh, LsbShifted x v sh e) ⟨0, lsbShifted_load x⟩
    (fun k hk => (lsbAfter_succ x k).trans (lsbStage_of_ne hk _)) (fun _ _ ⟨_, h⟩ => h.halve) hn

/-- Settles O10: the window after stage k has the width of stage k. -/
theorem msbStageInvariants : Obligations.MsbStageInvariants := by
  intro x k hx hk
  have h := msbWindow_after x (n := k + 1) hk
  rw [Nat.add_sub_add_right 7 1 k] at h
  exact ⟨h.shifted, h.pos hx, h.lt, h.dvd, Nat.le_sub_of_add_le h.le⟩

/-- Settles O15: the window after stage k has the width of stage k, and R is ahead of the shift by its upper places. -/
theorem lsbStageInvariants : Obligations.LsbStageInvariants := by
  intro x k hx hk
  obtain ⟨sh, h⟩ := lsbShifted_after x (n := k + 1) hk
  rw [Nat.add_sub_add_right 7 1 k] at h
  have hsum := h.sum
  have hle : 2 ^ (7 - k) ≤ 2 ^ 7 := Nat.pow_le_pow_right (by decide) (Nat.sub_le _ _)
  exact ⟨sh, h.shifted, h.low hx, by omega⟩

/-- Settles O38: the window before a stage leaves room for twice its width, so for the width. -/
theorem indexArithmeticNeverWraps : Obligations.IndexArithmeticNeverWraps := by
  intro x k
  have hpos := widthBits_pos (stageWidth k)
  have hm := (msbWindow_after x (Nat.le_of_lt_succ k.isLt)).le
  obtain ⟨sh, hl⟩ := lsbShifted_after x (Nat.le_of_lt_succ k.isLt)
  have hsum := hl.sum
  rw [two_pow_eq_add_stageWidth] at hm hsum
  exact ⟨fun _ => by omega, fun _ => by omega⟩

end Sys2Proof.Machine
end

section
/-! PROOFS. The index as plain wiring of the stage decisions (R70, R90, R131 to R133): each stage adds its own power of
two or nothing, so no addition carries, and bit 7 - k of the sum is decision k. -/

namespace Sys2Proof.Machine

/-- Every bit of an index is bit 7 - k for some stage k. -/
theorem index_eq_of_stage_bits {a b : Index} (h : ∀ k : Fin 8, a.getLsbD (7 - k.val) = b.getLsbD (7 - k.val)) :
    a = b := by
  refine BitVec.eq_of_getLsbD_eq fun i hi => ?_
  have hbit := h ⟨7 - i, by omega⟩
  rwa [show 7 - (7 - i) = i by omega] at hbit

/-- Complementing every decision complements the wired index (R132, R133). -/
theorem wireDecisions_not (d : Fin 8 → Bool) : wireDecisions (fun k => !d k) = ~~~wireDecisions d := by
  refine index_eq_of_stage_bits fun k => ?_
  have hk : 7 - k.val < 8 := by omega
  rw [BitVec.getLsbD_not, wireDecisions_getLsbD, wireDecisions_getLsbD, decide_eq_true hk, Bool.true_and]

/-- Adding a power of two to a word whose bit there is clear sets that bit and no other. -/
theorem getLsbD_add_twoPow {a : Index} {i : Nat} (h : a.getLsbD i = false) (j : Nat) :
    (a + BitVec.twoPow 8 i).getLsbD j = (a.getLsbD j || (BitVec.twoPow 8 i).getLsbD j) := by
  rw [BitVec.add_eq_or_of_and_eq_zero, BitVec.getLsbD_or]
  rw [BitVec.and_twoPow, h, if_neg Bool.false_ne_true]

/-- An accumulator that starts at 0 and to which stage k adds its power of two when decision k is true. -/
structure Accumulates (d : Fin 8 → Bool) (a : Nat → Index) : Prop where
  zero : a 0 = 0
  succ : ∀ k : Fin 8, a (k.val + 1) = if d k then a k.val + BitVec.twoPow 8 (7 - k.val) else a k.val

/-- After n stages the bits of the first n decisions are in place and the others are clear. -/
theorem Accumulates.getLsbD {d : Fin 8 → Bool} {a : Nat → Index} (h : Accumulates d a) {n : Nat} (hn : n ≤ 8)
    (j : Fin 8) : (a n).getLsbD (7 - j.val) = (decide (j.val < n) && d j) := by
  induction n generalizing j with
  | zero => simp [h.zero]
  | succ n ih =>
    obtain ⟨k, rfl⟩ : ∃ k : Fin 8, k.val = n := ⟨⟨n, hn⟩, rfl⟩
    have hj := ih (Nat.le_of_lt hn) j
    have hclear : (a k.val).getLsbD (7 - k.val) = false := by simp [ih (Nat.le_of_lt hn) k]
    have hplace : 7 - k.val = 7 - j.val ↔ k = j := by omega
    rw [h.succ]
    by_cases hkj : k = j
    · subst hkj
      cases hd : d k with
      | false => simp [hclear]
      | true => simp [getLsbD_add_twoPow hclear, hclear, show 7 - k.val < 8 by omega]
    · have hlt : (j.val < k.val + 1) = (j.val < k.val) := by
        have : j.val ≠ k.val := fun e => hkj (Fin.ext e.symm)
        exact propext (by omega)
      cases hd : d k with
      | false => simp [hj, hlt]
      | true => simp [getLsbD_add_twoPow hclear, hj, hlt, hplace, hkj]

/-- After the eight stages the accumulator is the wiring of the decisions (R131). -/
theorem Accumulates.eq_wireDecisions {d : Fin 8 → Bool} {a : Nat → Index} (h : Accumulates d a) :
    a 8 = wireDecisions d :=
  index_eq_of_stage_bits fun k => by
    rw [h.getLsbD (Nat.le_refl 8), wireDecisions_getLsbD, decide_eq_true k.isLt, Bool.true_and]

/-- A stage of the MSB engine adds its power of two when its test is true: stage 7 adds 1 (R67, R68). -/
theorem msbStage_r (k : Fin 8) (e : WorkRegs) :
    (msbStage k e).r = if msbTest (stageWidth k) e then e.r + BitVec.twoPow 8 (7 - k.val) else e.r := by
  by_cases h7 : k = 7
  · subst h7
    rw [msbStage_seven, msbFinal, apply_ite WorkRegs.r]
    rfl
  · rw [msbStage_of_ne h7, msbHalve, apply_ite WorkRegs.r, widthIndex_stageWidth]

/-- A stage of the LSB engine subtracts its power of two when its test is true: stage 7 subtracts 1 (R87, R88). -/
theorem lsbStage_r (k : Fin 8) (e : WorkRegs) :
    (lsbStage k e).r = if lsbTest (stageWidth k) e then e.r - BitVec.twoPow 8 (7 - k.val) else e.r := by
  by_cases h7 : k = 7
  · subst h7
    rw [lsbStage_seven, lsbFinal, apply_ite WorkRegs.r]
    rfl
  · rw [lsbStage_of_ne h7, lsbHalve, apply_ite WorkRegs.r, widthIndex_stageWidth]

theorem accumulates_msbDecision (x : U256) : Accumulates (msbDecision x) fun n => (msbAfter x n).r where
  zero := rfl
  succ k := by rw [msbAfter_succ, msbStage_r]; rfl

/-- The complement of the LSB engine's accumulator starts at 0, and what the engine subtracts is added to it. -/
theorem accumulates_lsbDecision (x : U256) : Accumulates (lsbDecision x) fun n => ~~~(lsbAfter x n).r where
  zero := show ~~~(255 : Index) = 0 by decide
  succ k := by rw [lsbAfter_succ, lsbStage_r, apply_ite (~~~·), BitVec.not_sub_eq_not_add]; rfl

/-- The MSB encoder gives the engine's accumulator (R70, R131). -/
theorem encodeMsb_msbDecision (x : U256) : encodeMsb (msbDecision x) = (msbRun x).r := by
  rw [msbRun_eq_after]
  exact (accumulates_msbDecision x).eq_wireDecisions.symm

/-- The LSB encoder gives the engine's accumulator (R90, R132). -/
theorem encodeLsb_lsbDecision (x : U256) : encodeLsb (lsbDecision x) = (lsbRun x).r := by
  rw [lsbRun_eq_after, encodeLsb, wireDecisions_not, ← (accumulates_lsbDecision x).eq_wireDecisions, BitVec.not_not]

/-- The CLZ view of the MSB decisions is the complement of the accumulator (R133). -/
theorem encodeClz_msbDecision (x : U256) : encodeClz (msbDecision x) = 255 - (msbRun x).r := by
  rw [encodeClz, wireDecisions_not, ← encodeMsb, encodeMsb_msbDecision]
  exact (BitVec.allOnes_sub_eq_not _).symm

/-- Settles O17: the encoders give the accumulators, and their bits are the wired decisions. -/
theorem stageDecisionsAreTheIndexBits : Obligations.StageDecisionsAreTheIndexBits := by
  refine fun x => ⟨encodeMsb_msbDecision x, encodeLsb_lsbDecision x, fun k => ⟨?_, ?_⟩⟩
  · rw [← encodeMsb_msbDecision, encodeMsb, wireDecisions_getLsbD]
  · rw [← encodeLsb_lsbDecision, encodeLsb, wireDecisions_getLsbD]

end Sys2Proof.Machine
end

section
/-! PROOFS. What CLZ and CTZ count and how the four results relate (R75, R95, R133), and the closed forms of the two
indices (R146), from the contracts of the two indices. -/

namespace Sys2Proof.Machine

/-- The complement of an index is what is left of 255 (R133). -/
theorem toNat_complement_add (m : Index) : (255 - m).toNat + m.toNat = 255 := by
  have hm := m.isLt
  rw [toNat_complement]
  omega

/-- Settles O20: CLZ is the complement of MSB and CTZ is LSB, between which all set bits stand. -/
theorem zeroCountsCountZeroBits : Obligations.ZeroCountsCountZeroBits := by
  intro x s hx
  have hm := msbContract_msbRun hx
  have hl := lsbContract_lsbRun hx
  have hsum := toNat_complement_add (msbRun x).r
  have hle := le_of_msbContract hm (getLsbD_of_lsbContract hl)
  have hclz : 255 - (255 - (msbRun x).r).toNat = (msbRun x).r.toNat := by omega
  refine ⟨_, _, _, _, answers_msb_of_contract s hm, answers_lsb_of_contract s hl, answers_clz_of_contract s hm,
    answers_ctz_of_contract s hl, ?_⟩
  rw [hclz]
  refine ⟨fun _ => getLsbD_of_msbContract_of_lt hm, getLsbD_of_msbContract hm, fun _ => getLsbD_of_lt_of_lsbContract hl,
    getLsbD_of_lsbContract hl, BitVec.allOnes_sub_eq_not _, hsum, rfl, by omega, ?_, encodeClz_msbDecision x,
    encodeLsb_lsbDecision x⟩
  rw [← eq_iff_exists_two_pow hm hl, ← BitVec.toNat_inj]
  omega

/-- Settles O27: the contract of MSB bounds the operand as its logarithm does, and that of LSB is about divisibility. -/
theorem closedFormsOfTheIndices : Obligations.ClosedFormsOfTheIndices := fun x s hx =>
  exists_answers_of_contracts s hx fun _ l ⟨hle, hlt⟩ hl =>
    ⟨(Nat.log_eq_of_pow_le_of_lt_pow hle hlt).symm, (lsbContract_iff_dvd x l).1 hl⟩

/-- Settles O28: each operand of the scenarios meets the contracts with the listed indices. -/
theorem sourceScenarios : Obligations.SourceScenarios := fun s =>
  ⟨answers_lsb_of_contract s lsbContract_example, answers_msb_of_contract s msbContract_example,
    answers_lsb_of_contract s (by decide), answers_msb_of_contract s (msbContract_of_two_pow_255_le (by decide)),
    answers_lsb_of_contract s (lsbContract_zero (by decide)), answers_msb_of_contract s (by decide),
    answers_lsb_of_contract s (lsbContract_zero (by decide)), answers_msb_of_contract s (by decide),
    answers_lsb_of_contract s (lsbContract_zero (by decide)),
    answers_msb_of_contract s (msbContract_of_two_pow_255_le (by decide)),
    answers_lsb_of_contract s (by decide), answers_msb_of_contract s (msbContract_of_two_pow_255_le (by decide))⟩

end Sys2Proof.Machine
end

section
/-! PROOFS. SHR and the limb forms of GE and SHR (R105, R109): each is compared with the whole-value form over the
natural numbers, where a U256 is the sum of its limbs in base 2^64. -/

namespace Sys2Proof.Machine

/-- The first unequal pair of limbs from the top decides a comparison of the sums (R105). -/
theorem geLimbs_iff (a b : Limbs) : geLimbs a b = true ↔ (ofLimbs b).toNat ≤ (ofLimbs a).toNat := by
  have ha0 : a.l0.toNat < 2 ^ 64 := a.l0.isLt
  have ha1 : a.l1.toNat < 2 ^ 64 := a.l1.isLt
  have ha2 : a.l2.toNat < 2 ^ 64 := a.l2.isLt
  have hb0 : b.l0.toNat < 2 ^ 64 := b.l0.isLt
  have hb1 : b.l1.toNat < 2 ^ 64 := b.l1.isLt
  have hb2 : b.l2.toNat < 2 ^ 64 := b.l2.isLt
  rw [ofLimbs_toNat, ofLimbs_toNat, geLimbs]
  simp only [ne_eq, ← BitVec.toNat_inj]
  split
  case isTrue h3 => rw [BitVec.ult, decide_eq_true_eq]; omega
  case isFalse h3 =>
    split
    case isTrue h2 => rw [BitVec.ult, decide_eq_true_eq]; omega
    case isFalse h2 =>
      split
      case isTrue h1 => rw [BitVec.ult, decide_eq_true_eq]; omega
      case isFalse h1 =>
        split
        case isTrue h0 => rw [BitVec.ult, decide_eq_true_eq]; omega
        case isFalse h0 => exact iff_of_true rfl (by omega)

theorem geLimbs_toLimbs (a b : U256) : geLimbs (toLimbs a) (toLimbs b) = geU a b := by
  rw [Bool.eq_iff_iff, geLimbs_iff, ofLimbs_toLimbs, ofLimbs_toLimbs, geU_iff]

/-- A limb form of SHR agrees with SHR when its limbs sum to the quotient (R109). -/
theorem ofLimbs_eq_shrU {l : Limbs} {a : U256} {s : Fin 256}
    (h : l.l0.toNat + l.l1.toNat * 2 ^ 64 + l.l2.toNat * 2 ^ 128 + l.l3.toNat * 2 ^ 192 = a.toNat / 2 ^ s.val) :
    ofLimbs l = shrU a s := by
  apply BitVec.eq_of_toNat_eq
  rw [ofLimbs_toNat, shrU_toNat, h]

theorem ofLimbs_shrLimbs128 (a : U256) : ofLimbs (shrLimbs128 (toLimbs a)) = shrU a 128 := by
  have ha : a.toNat < 2 ^ 256 := a.isLt
  apply ofLimbs_eq_shrU
  change _ = a.toNat / 2 ^ 128
  simp only [shrLimbs128, toLimbs_l2_toNat, toLimbs_l3_toNat, BitVec.ofNat_eq_ofNat, BitVec.toNat_zero]
  omega

theorem ofLimbs_shrLimbs64 (a : U256) : ofLimbs (shrLimbs64 (toLimbs a)) = shrU a 64 := by
  have ha : a.toNat < 2 ^ 256 := a.isLt
  apply ofLimbs_eq_shrU
  change _ = a.toNat / 2 ^ 64
  simp only [shrLimbs64, toLimbs_l1_toNat, toLimbs_l2_toNat, toLimbs_l3_toNat, BitVec.ofNat_eq_ofNat, BitVec.toNat_zero]
  omega

/-- A shift amount below 64 and its rest make up a limb. -/
theorem two_pow_mul_two_pow_sub {s : Nat} (hs : s < 64) : 2 ^ s * 2 ^ (64 - s) = 2 ^ 64 := by
  rw [← Nat.pow_add, Nat.add_sub_cancel' hs.le]

/-- The parts of two limbs that a shift below 64 brings together fit one limb (R109). -/
theorem shrLimbPair_toNat {s : Nat} (hs : s < 64) (limb next : Limb) :
    (shrLimbPair s limb next).toNat = limb.toNat / 2 ^ s + next.toNat % 2 ^ s * 2 ^ (64 - s) := by
  have hpow := two_pow_mul_two_pow_sub hs
  have hlimb : limb.toNat / 2 ^ s < 2 ^ (64 - s) := Nat.div_lt_of_lt_mul (by rw [hpow]; exact limb.isLt)
  have hnext : next.toNat % 2 ^ s + 1 ≤ 2 ^ s := Nat.mod_lt _ (Nat.two_pow_pos s)
  have hmul := Nat.mul_le_mul_right (2 ^ (64 - s)) hnext
  rw [hpow, Nat.succ_mul] at hmul
  rw [shrLimbPair, BitVec.toNat_ofNat, Nat.mod_eq_of_lt (by omega)]

/-- Shifting up by the rest of a limb splits a limb at the shift amount: its upper part lands in the next limb. -/
theorem mul_two_pow_sub_eq_split {s : Nat} (hs : s < 64) (n : Nat) :
    n * 2 ^ (64 - s) = n % 2 ^ s * 2 ^ (64 - s) + n / 2 ^ s * 2 ^ 64 := by
  have hpow := two_pow_mul_two_pow_sub hs
  rw [← hpow, ← Nat.mul_assoc, ← Nat.add_mul, Nat.mul_comm (n / 2 ^ s), Nat.mod_add_div]

/-- The quotient of a sum in base 2^64 by a power of two below the base. -/
theorem limb_sum_div_two_pow {s : Nat} (hs : s < 64) (l0 l1 l2 l3 : Nat) :
    (l0 + l1 * 2 ^ 64 + l2 * 2 ^ 128 + l3 * 2 ^ 192) / 2 ^ s =
      l0 / 2 ^ s + l1 * 2 ^ (64 - s) + l2 * 2 ^ (64 - s) * 2 ^ 64 + l3 * 2 ^ (64 - s) * 2 ^ 128 := by
  have hpow := two_pow_mul_two_pow_sub hs
  have hsum : l0 + l1 * 2 ^ 64 + l2 * 2 ^ 128 + l3 * 2 ^ 192 =
      l0 + 2 ^ s * (l1 * 2 ^ (64 - s) + l2 * 2 ^ (64 - s) * 2 ^ 64 + l3 * 2 ^ (64 - s) * 2 ^ 128) := by
    linear_combination (l1 + l2 * 2 ^ 64 + l3 * 2 ^ 128) * hpow.symm
  rw [hsum, Nat.add_mul_div_left _ _ (Nat.two_pow_pos s)]
  omega

theorem ofLimbs_shrLimbsBelow64 (a : U256) (s : Fin 64) :
    ofLimbs (shrLimbsBelow64 s (toLimbs a)) = shrU a ⟨s.val, by omega⟩ := by
  refine ofLimbs_eq_shrU ?_
  rw [toNat_eq_limb_sum a, limb_sum_div_two_pow s.isLt, mul_two_pow_sub_eq_split s.isLt (toLimbs a).l1.toNat,
    mul_two_pow_sub_eq_split s.isLt (toLimbs a).l2.toNat, mul_two_pow_sub_eq_split s.isLt (toLimbs a).l3.toNat]
  simp only [shrLimbsBelow64, shrLimbPair_toNat s.isLt, BitVec.ofNat_eq_ofNat, BitVec.toNat_zero, Nat.zero_mod, Nat.zero_mul]
  omega

/-- Settles O30: each limb form and its whole-value form are the same operation on natural numbers. -/
theorem limbFormsAgree : Obligations.LimbFormsAgree := fun a b =>
  ⟨geLimbs_toLimbs a b, ofLimbs_andLimbs a b, ofLimbs_shrLimbs128 a, ofLimbs_shrLimbs64 a, ofLimbs_shrLimbsBelow64 a⟩

/-- Bit i of a shift is bit i + s, and 0 where that is above bit 255 (R109). -/
theorem shrU_getLsbD (a : U256) (s : Fin 256) (i : Nat) :
    (shrU a s).getLsbD i = if i + s.val ≤ 255 then a.getLsbD (i + s.val) else false := by
  rw [shrU, BitVec.getLsbD_ushiftRight, Nat.add_comm]
  split
  case isTrue h => rfl
  case isFalse h => exact BitVec.getLsbD_of_ge a _ (by omega)

/-- Settles O33: the shift in value and bit by bit, and the amounts that have no result. -/
theorem shiftIsLogicalAndBounded : Obligations.ShiftIsLogicalAndBounded := fun a s =>
  ⟨fun h => ⟨shrNat_of_lt a h, shrU_toNat a ⟨s, h⟩, shrU_getLsbD a ⟨s, h⟩⟩, fun h => dif_neg (Nat.not_lt.2 h),
    BitVec.ushiftRight_zero a⟩

end Sys2Proof.Machine
end

section
/-! PROOFS. Frames of the commands (R13, R14, R66, R86), zero operands (R73, R93), and what a step takes and what the
working registers do not reach (R24, R168). -/

namespace Sys2Proof.Machine

/-- On a nonzero operand a command can end in no other way than by giving its result (R161). -/
theorem eq_giveResult_of_exec {i : Instr} {s t : State} (h : i.operand ≠ 0) (hexec : exec i s = .next t) :
    t = giveResult (engineOf (commandOf i)) (resultOf i) s := by
  rw [exec_nonzero s h] at hexec
  injection hexec with ht
  exact ht.symm

/-- What giving a result leaves unchanged in the block, and what it adds to the record (R66, R86). -/
theorem giveResult_frame (e : Engine) (r : Index) (s : State) :
    (giveResult e r s).request = s.request ∧ (giveResult e r s).resetIn = s.resetIn ∧
      (giveResult e r s).faultMark = s.faultMark ∧ (giveResult e r s).running = none ∧
      ∃ r' : Index, (giveResult e r s).response = some (.ok r') ∧ (giveResult e r s).record = s.record ++ [.ok r'] :=
  ⟨giveResult_request e r s, giveResult_resetIn e r s, giveResult_faultMark e r s, giveResult_running e r s, r,
    giveResult_response e r s, giveResult_record e r s⟩

/-- Settles O45: both commands end by giving a result of the MSB engine. -/
theorem msbAndClzFrame : Obligations.MsbAndClzFrame := by
  intro x s t hx h
  obtain ⟨r, rfl⟩ : ∃ r, t = giveResult .msbLzc r s :=
    h.elim (fun hmsb => ⟨_, eq_giveResult_of_exec (i := .msb x) hx hmsb⟩)
      fun hclz => ⟨_, eq_giveResult_of_exec (i := .clz x) hx hclz⟩
  exact ⟨giveResult_msbLzc_lsb r s, giveResult_frame _ r s⟩

/-- Settles O46: both commands end by giving a result of the LSB engine. -/
theorem lsbAndCtzFrame : Obligations.LsbAndCtzFrame := by
  intro x s t hx h
  obtain ⟨r, rfl⟩ : ∃ r, t = giveResult .lsbTz r s :=
    h.elim (fun hlsb => ⟨_, eq_giveResult_of_exec (i := .lsb x) hx hlsb⟩)
      fun hctz => ⟨_, eq_giveResult_of_exec (i := .ctz x) hx hctz⟩
  exact ⟨giveResult_lsbTz_msb r s, giveResult_frame _ r s⟩

/-- An operand exceeds ZERO when it is not ZERO (R106). -/
theorem gtU_zeroU_right (x : U256) : gtU x zeroU = !eqU x zeroU := by
  have hge : geU x zeroU = true := (geU_iff x zeroU).2 (Nat.zero_le _)
  rw [gtU_eq_geU_and_not_eqU, hge, Bool.true_and]

/-- Settles O41: the stages' runs on zero are evaluated, and a command on zero raises the domain error before them. -/
theorem zeroNeverFallsThrough : Obligations.ZeroNeverFallsThrough := by
  refine ⟨by decide, by decide, gtU_zeroU_right, fun i s h => ⟨⟨raiseDomainError s, exec_zero s h, ?_⟩, fun r hr => ?_⟩⟩
  · exact ⟨raiseDomainError_response s, raiseDomainError_record s, raiseDomainError_faultMark s⟩
  · exact (answers_iff.1 hr).1 h

/-- Every step answers a next state (R161). -/
theorem exists_step_eq_next (s : State) : ∃ t : State, step s = .next t := by
  cases hres : s.resetIn with
  | true => exact ⟨_, step_in_reset hres⟩
  | false =>
    cases hrun : s.running with
    | some op => exact ⟨_, step_running hres hrun⟩
    | none =>
      cases hq : s.request with
      | none => exact ⟨_, step_idle hres hrun hq⟩
      | some w => exact ⟨_, (step_request hres hrun hq).trans (exec_eq _ _)⟩

/-- Settles O47: a ready block takes the request and runs the command it decodes to. -/
theorem stepRunsTheDecodedRequest : Obligations.StepRunsTheDecodedRequest := by
  refine ⟨fun s i hres hrun hq _ => ?_, fun _ => step_idle, exists_step_eq_next⟩
  rw [step_request hres hrun hq, decode_encode]
  rfl

/-- Settles O48: the placed number is the command's word, which stands at a released and idle block. -/
theorem placedRequestRunsNext : Obligations.PlacedRequestRunsNext := by
  intro s i _
  have hplace : s.withFetchWord 258 (encode i).toNat =
      presentRequest (encode i) { s with resetIn := false, running := none } := by
    rw [State.withFetchWord, presentNumber, requestWord_toNat]
  rw [hplace, step_request rfl rfl rfl, decode_encode]
  rfl

/-- What the caller and the environment can see of a state: everything but the working registers and the counter of free
values (R19, R24). -/
def SameInterface (t u : State) : Prop :=
  u.response = t.response ∧ u.record = t.record ∧ u.faultMark = t.faultMark ∧ u.request = t.request ∧
    u.running = t.running ∧ u.resetIn = t.resetIn

/-- A state with other contents of the working registers and another counter of free values. -/
def State.withIdle (s : State) (m l : WorkRegs) (d : Nat) : State :=
  { s with msb := m, lsb := l, draws := d }

/-- Settles O50: what a step of a block with no operation in progress writes at the interface is read from no working
register and from no free value. -/
theorem workingRegistersNeverReachAResult : Obligations.WorkingRegistersNeverReachAResult := by
  intro s t m l d hrun hstep
  change ∃ u, step (s.withIdle m l d) = .next u ∧ SameInterface t u
  obtain ⟨hres, rfl⟩ | ⟨op, -, hop, -⟩ | ⟨hres, -, hq, rfl⟩ | ⟨w, hres, -, hq, hz, rfl⟩ | ⟨w, hres, -, hq, hz, rfl⟩ :=
    step_cases hstep
  · exact ⟨_, step_in_reset hres, rfl, rfl, rfl, rfl, rfl, rfl⟩
  · exact absurd (hrun.symm.trans hop) (Option.some_ne_none _).symm
  · exact ⟨_, step_idle hres hrun hq, rfl, rfl, rfl, rfl, rfl, rfl⟩
  · exact ⟨_, (step_request (s := s.withIdle m l d) hres hrun hq).trans (exec_zero _ hz), rfl, rfl, rfl, rfl, rfl, rfl⟩
  · refine ⟨_, (step_request (s := s.withIdle m l d) hres hrun hq).trans (exec_nonzero _ hz), ?_⟩
    simp [SameInterface, State.withIdle]

end Sys2Proof.Machine
end

section
/-! PROOFS. Runs (R36, R165, R169, R172, R183): of one block, after a failure, and of any number of blocks under any
schedule. -/

namespace Sys2Proof.Machine

/-- Settles O51: `serve` answers the response function, and a command answers that of its request word. -/
theorem runIsTheSequenceOfItsResponses : Obligations.RunIsTheSequenceOfItsResponses := by
  refine ⟨fun ws _ hs => serveAll_records_responses ws hs, fun i s => ?_⟩
  by_cases h : i.operand = 0
  · rw [responseOf_zero (by rwa [decode_encode])]
    exact ⟨_, exec_zero s h, raiseDomainError_response s⟩
  · rw [responseOf_nonzero (by rwa [decode_encode]), decode_encode]
    exact ⟨_, exec_nonzero s h, giveResult_response _ _ s⟩

/-- Settles O43: the failing request leaves the block ready, and the response to the next one is the response function's
in every ready state. -/
theorem failureLeavesTheNextRequestAlone : Obligations.FailureLeavesTheNextRequestAlone := by
  intro s bad w hs hbad
  obtain ⟨v, hserve, hv, -, hrecord, -⟩ := serve_answers_responseOf bad hs
  obtain ⟨t, ht, -, hresponse, hrecord', -⟩ := serve_answers_responseOf w hv
  obtain ⟨u, hu, -, hresponse', hrecord'', -⟩ := serve_answers_responseOf w hs
  refine ⟨t, u, (serveAll_cons hserve).trans (serveAll_cons ht), serveAll_cons hu, hresponse.trans hresponse'.symm, ?_, ?_⟩
  · rw [hresponse]
    exact Option.some_ne_none _
  · rw [hrecord', hrecord, hrecord'', responseOf_zero hbad, List.drop_left, List.append_assoc]
    rfl

theorem exists_serve_eq_next (w : ReqWord) (s : State) : ∃ t : State, serve w s = .next t :=
  exists_step_eq_next _

/-- A schedule goes on from the system its first event leaves. -/
theorem systemRun_cons {e : Nat × ReqWord} {es : List (Nat × ReqWord)} {sys sys' : System}
    (h : systemServe e.1 e.2 sys = .next sys') : systemRun (e :: es) sys = systemRun es sys' := by
  rw [systemRun, h]

theorem requestsOf_cons_self (k : Nat) (w : ReqWord) (es : List (Nat × ReqWord)) :
    requestsOf k ((k, w) :: es) = w :: requestsOf k es := by
  simp [requestsOf]

theorem requestsOf_cons_of_ne {j k : Nat} (h : j ≠ k) (w : ReqWord) (es : List (Nat × ReqWord)) :
    requestsOf k ((j, w) :: es) = requestsOf k es := by
  simp [requestsOf, h]

/-- A schedule of existing blocks runs, and each block ends as after its own requests alone (R169). -/
theorem systemRun_each_as_alone (es : List (Nat × ReqWord)) (sys : System) (h : ∀ e ∈ es, e.1 < sys.length) :
    ∃ sys' : System, systemRun es sys = .next sys' ∧ sys'.length = sys.length ∧
      ∀ (k : Nat) (s : State), sys[k]? = some s →
        ∃ t : State, sys'[k]? = some t ∧ serveAll (requestsOf k es) s = .next t := by
  induction es generalizing sys with
  | nil => exact ⟨sys, rfl, rfl, fun _ s hs => ⟨s, hs, rfl⟩⟩
  | cons e es ih =>
    obtain ⟨j, w⟩ := e
    obtain ⟨hj, hes⟩ := List.forall_mem_cons.1 h
    obtain ⟨u, hserve⟩ := exists_serve_eq_next w sys[j]
    have hevent := systemServe_eq (List.getElem?_eq_getElem hj) hserve
    obtain ⟨sys', hrun, hlength, heach⟩ := ih (sys.set j u) (by simpa using hes)
    refine ⟨sys', (systemRun_cons hevent).trans hrun, by simpa using hlength, fun k s hk => ?_⟩
    by_cases hjk : j = k
    · subst hjk
      obtain rfl : sys[j] = s := Option.some_inj.1 ((List.getElem?_eq_getElem hj).symm.trans hk)
      rw [requestsOf_cons_self, serveAll_cons hserve]
      exact heach j u (List.getElem?_set_self hj)
    · rw [requestsOf_cons_of_ne hjk]
      exact heach k s (by rw [List.getElem?_set_ne hjk, hk])

/-- The run's mark is set when the mark of some block is (log 24). -/
theorem systemFaultMark_iff (sys : System) :
    systemFaultMark sys = true ↔ ∃ (k : Nat) (s : State), sys[k]? = some s ∧ s.faultMark = true := by
  simp only [systemFaultMark, List.any_eq_true, List.mem_iff_getElem?]
  exact ⟨fun ⟨s, ⟨k, hk⟩, hs⟩ => ⟨k, s, hk, hs⟩, fun ⟨k, s, hk, hs⟩ => ⟨s, ⟨k, hk⟩, hs⟩⟩

/-- A block's requests are those of the events that name it. -/
theorem any_requestsOf_iff (k : Nat) (es : List (Nat × ReqWord)) (p : ReqWord → Bool) :
    (requestsOf k es).any p = true ↔ ∃ e ∈ es, e.1 = k ∧ p e.2 = true := by
  simp [requestsOf]

/-- When each block's mark is set by its own failing requests, the run's mark is set by the failing requests of the
schedule, each of which is some block's (R172, log 24). -/
theorem systemFaultMark_of_each {es : List (Nat × ReqWord)} {sys sys' : System} {p : ReqWord → Bool}
    (h : ∀ e ∈ es, e.1 < sys.length) (hlength : sys'.length = sys.length)
    (heach : ∀ (k : Nat) (s : State), sys[k]? = some s →
      ∃ t : State, sys'[k]? = some t ∧ t.faultMark = (s.faultMark || (requestsOf k es).any p)) :
    systemFaultMark sys' = (systemFaultMark sys || es.any fun e => p e.2) := by
  rw [Bool.eq_iff_iff, Bool.or_eq_true, systemFaultMark_iff, systemFaultMark_iff, List.any_eq_true]
  constructor
  · rintro ⟨k, t, hk, ht⟩
    have hlt : k < sys.length := hlength ▸ (List.getElem?_eq_some_iff.1 hk).1
    have hs := List.getElem?_eq_getElem hlt
    obtain ⟨t', hk', hmark⟩ := heach k _ hs
    obtain rfl : t = t' := Option.some_inj.1 (hk.symm.trans hk')
    rw [ht, eq_comm, Bool.or_eq_true, any_requestsOf_iff] at hmark
    exact hmark.imp (fun hset => ⟨k, _, hs, hset⟩) fun ⟨e, he, _, hp⟩ => ⟨e, he, hp⟩
  · rintro (⟨k, s, hs, hset⟩ | ⟨e, he, hp⟩)
    · obtain ⟨t, hk, hmark⟩ := heach k s hs
      exact ⟨k, t, hk, by rw [hmark, hset, Bool.true_or]⟩
    · obtain ⟨t, hk, hmark⟩ := heach e.1 _ (List.getElem?_eq_getElem (h e he))
      have hany := (any_requestsOf_iff e.1 es p).2 ⟨e, he, rfl, hp⟩
      exact ⟨e.1, t, hk, by rw [hmark, hany, Bool.or_true]⟩

/-- Settles O52: each block runs as if alone, so its mark is that of its own run, and the run's mark is made of
these. -/
theorem schedulesDoNotMatter : Obligations.SchedulesDoNotMatter := by
  intro es sys h
  obtain ⟨sys', hrun, hlength, heach⟩ := systemRun_each_as_alone es sys h
  refine ⟨sys', hrun, hlength, heach, fun hready => ?_⟩
  refine systemFaultMark_of_each (p := fun w => (decode w).operand == 0) h hlength fun k s hs => ?_
  obtain ⟨t, hk, hserve⟩ := heach k s hs
  obtain ⟨u, hserve', -, -, hmark⟩ := serveAll_records_responses (requestsOf k es) (hready s (List.mem_of_getElem? hs))
  obtain rfl : t = u := Host.Outcome.next.inj (hserve.symm.trans hserve')
  exact ⟨t, hk, hmark⟩

end Sys2Proof.Machine
end

section
/-! PROOFS. Steps and stage ticks (R16, R51, R162, R194): the ticks that are left of an operation complete it as a step
does, and until the last of them nothing is answered. -/

namespace Sys2Proof.Machine

theorem ticks_succ (n : Nat) (s : State) : ticks (n + 1) s = ticks n (tick s) := rfl

theorem ticks_one (s : State) : ticks 1 s = tick s := rfl

@[simp] theorem stageTick_resetIn (op : Running) (s : State) : (stageTick op s).resetIn = s.resetIn := by
  by_cases h : op.stage = 7 <;> simp [stageTick, h]

/-- Completing an operation does not depend on whether its next stage is run first. -/
theorem finishOperation_stageTick {op : Running} {s : State} (h : op.stage ≠ 7) :
    finishOperation ⟨op.cmd, op.stage + 1⟩ (stageTick op s) = finishOperation op s := by
  rw [stageTick_of_ne s h, finishOperation, finishOperation, engineRegs_with_running, engineRegs_setEngineRegs,
    giveResult_with_running, finishStages_of_ne _ h]

/-- The 8 - k ticks that are left from stage k complete the operation (R162, R194). -/
theorem ticks_eq_finishOperation {n : Nat} {s : State} {op : Running} (hn : op.stage.val + n = 7)
    (hres : s.resetIn = false) (hrun : s.running = some op) : ticks (n + 1) s = finishOperation op s := by
  induction n generalizing s op with
  | zero =>
    have h7 : op.stage = 7 := Fin.ext hn
    rw [ticks_one, tick_running hres hrun, stageTick_seven s h7]
  | succ n ih =>
    have h7 : op.stage ≠ 7 := by omega
    have hval := stage_succ_val h7
    rw [ticks_succ, tick_running hres hrun, ← finishOperation_stageTick h7]
    refine ih (by simp only [hval]; omega) ((stageTick_resetIn op s).trans hres) ?_
    rw [stageTick_of_ne s h7]

/-- Ticks before the last leave the operation in progress, with what stands at the interface and in the record. -/
theorem ticks_in_progress {n : Nat} {s : State} {op : Running} (hn : op.stage.val + n ≤ 7) (hres : s.resetIn = false)
    (hrun : s.running = some op) :
    (ticks n s).running ≠ none ∧ (ticks n s).response = s.response ∧ (ticks n s).record = s.record := by
  induction n generalizing s op with
  | zero => exact ⟨fun h => Option.some_ne_none op (hrun.symm.trans h), rfl, rfl⟩
  | succ n ih =>
    have h7 : op.stage ≠ 7 := by omega
    have hval := stage_succ_val h7
    rw [ticks_succ, tick_running hres hrun]
    have hstep := ih (s := stageTick op s) (op := ⟨op.cmd, op.stage + 1⟩) (by simp only [hval]; omega)
      ((stageTick_resetIn op s).trans hres) (by rw [stageTick_of_ne s h7])
    rwa [show (stageTick op s).response = s.response by simp [stageTick_of_ne s h7],
      show (stageTick op s).record = s.record by simp [stageTick_of_ne s h7]] at hstep

/-- The state in which an operation on a nonzero operand starts: its engine loaded, its stage number 0 (R181). -/
def loaded (i : Instr) (s : State) : State :=
  { setEngineRegs (engineOf (commandOf i)) (engineLoad (engineOf (commandOf i)) i.operand) s with
    running := some ⟨commandOf i, 0⟩ }

@[simp] theorem loaded_resetIn (i : Instr) (s : State) : (loaded i s).resetIn = s.resetIn := setEngineRegs_resetIn _ _ s
@[simp] theorem loaded_running (i : Instr) (s : State) : (loaded i s).running = some ⟨commandOf i, 0⟩ := rfl
@[simp] theorem loaded_response (i : Instr) (s : State) : (loaded i s).response = s.response :=
  setEngineRegs_response _ _ s
@[simp] theorem loaded_record (i : Instr) (s : State) : (loaded i s).record = s.record := setEngineRegs_record _ _ s

/-- The first tick takes a request with a nonzero operand and loads its engine (R156, R181). -/
theorem tick_eq_loaded {s : State} {w : ReqWord} (h : Ready s) (hq : s.request = some w)
    (hz : (decode w).operand ≠ 0) : tick s = loaded (decode w) (takeRequest s) := by
  obtain ⟨hres, hrun⟩ := h
  rw [tick_request hres hrun hq, startOperation_nonzero _ _ hz, loaded]

/-- An operation loaded and completed gives the result of its command (R51). -/
theorem finishOperation_loaded (i : Instr) (s : State) :
    finishOperation ⟨commandOf i, 0⟩ (loaded i s) = giveResult (engineOf (commandOf i)) (resultOf i) s := by
  rw [loaded, finishOperation, engineRegs_with_running, engineRegs_setEngineRegs, giveResult_with_running,
    ← resultOf_eq_viewOf_finishStages]

/-- Settles O53: the first tick starts the operation, and the ticks that are left of an operation complete it. -/
theorem stepIsItsStageTicks : Obligations.StepIsItsStageTicks := by
  refine ⟨fun s w hs hq => ⟨fun hz => ?_, fun hz => ?_⟩, fun s op hres hrun => ?_, fun s hres => ?_⟩
  · have hres : (loaded (decode w) (takeRequest s)).resetIn = false := (loaded_resetIn _ _).trans hs.1
    refine ⟨?_, fun n hpos hlt => ?_⟩
    · rw [step_request hs.1 hs.2 hq, exec_nonzero _ hz, ticks_succ, tick_eq_loaded hs hq hz,
        ticks_eq_finishOperation (n := 7) rfl hres (loaded_running _ _), finishOperation_loaded]
    · obtain ⟨n, rfl⟩ := Nat.exists_eq_add_one_of_ne_zero hpos.ne'
      obtain ⟨hrun, hresponse, hrecord⟩ :=
        ticks_in_progress (n := n) (by simpa using Nat.le_of_lt_succ (Nat.lt_of_succ_lt_succ hlt)) hres
          (loaded_running _ _)
      rw [ticks_succ, tick_eq_loaded hs hq hz]
      exact ⟨hrun, hresponse.trans (loaded_response _ _), hrecord.trans (loaded_record _ _)⟩
  · rw [step_request hs.1 hs.2 hq, exec_zero _ hz, ticks_one, tick_request hs.1 hs.2 hq, hz, startOperation_zero]
  · rw [step_running hres hrun, ← ticks_eq_finishOperation (n := 7 - op.stage.val) (by omega) hres hrun,
      show 7 - op.stage.val + 1 = 8 - op.stage.val by omega]
  · rw [step_in_reset hres, tick_in_reset hres]

/-- Settles O54: the first tick loads the engine of the command, and the other engine's registers are its own. -/
theorem operationStartLoadsTheEngine : Obligations.OperationStartLoadsTheEngine := by
  intro s i hs hq hz
  rw [tick_eq_loaded hs hq (by rwa [decode_encode]), decode_encode, loaded]
  refine ⟨rfl, fun he => ?_, fun he => ?_⟩ <;> rw [he] <;> exact ⟨rfl, rfl⟩

end Sys2Proof.Machine
end

section
/-! PROOFS. Reset and the caller (R171, R180): what reset leaves, and that a request sent to the idle block is answered
like any other. -/

namespace Sys2Proof.Machine

/-- Settles O55: the reset state is ready, so it serves a request as any ready block does. -/
theorem resetLeavesTheBlockIdle : Obligations.ResetLeavesTheBlockIdle := by
  refine ⟨reset_resetIn, reset_running, reset_response, fun w => ?_⟩
  obtain ⟨t, ht, -, hresponse, -⟩ := serve_answers_responseOf w ⟨reset_resetIn, reset_running⟩
  exact ⟨t, ht, hresponse⟩

/-- Releasing reset where it is asserted leaves the block ready (R180). -/
theorem ready_releaseReset {s : State} (h : s.resetIn = true) : Ready (releaseReset s) := by
  rw [releaseReset_of_asserted h]
  exact ⟨rfl, holdReset_running s⟩

/-- Settles O56: asserting and stepping hold reset, and releasing it leaves the block ready with no response. -/
theorem resetDropsTheOperation : Obligations.ResetDropsTheOperation := by
  refine ⟨fun s => ⟨assertReset_resetIn s, assertReset_running s, assertReset_response s, assertReset_record s⟩,
    fun s h => ⟨⟨holdReset s, step_in_reset h, ?_⟩, ready_releaseReset h, ?_, releaseReset_record s, fun w => ?_⟩⟩
  · exact ⟨(holdReset_resetIn s).trans h, holdReset_running s, holdReset_response s, holdReset_record s⟩
  · rw [releaseReset_of_asserted h]
    exact holdReset_response s
  · obtain ⟨u, hu, -, hresponse, -⟩ := serve_answers_responseOf w (ready_releaseReset h)
    exact ⟨u, hu, hresponse⟩

/-- A second request before the response is refused (R171, log 15). -/
theorem callerSend_overlap {s : State} (h : s.request ≠ none ∨ s.running ≠ none) (w : ReqWord) :
    callerSend w s = .error .requestOverlap := by
  refine if_pos ?_
  rwa [Bool.or_eq_true, Option.isSome_iff_ne_none, Option.isSome_iff_ne_none]

/-- A request to a block that has none is presented (R171). -/
theorem callerSend_of_idle {s : State} (hq : s.request = none) (hrun : s.running = none) (w : ReqWord) :
    callerSend w s = .ok (presentRequest w s) := by
  refine if_neg ?_
  simp [hq, hrun]

/-- Settles O60: after reset the block is ready with nothing presented, so it idles until a request is sent, which it
answers. -/
theorem callerDuties : Obligations.CallerDuties := by
  refine ⟨fun _ => rfl, rfl, fun w _ h => callerSend_overlap h w, fun w _ hq hrun => callerSend_of_idle hq hrun w,
    fun s rsp h => ?_, fun s => ?_, fun w s => ?_⟩
  · rw [callerTake, h, Option.map_some]
  · exact ⟨_, step_idle (releaseReset_resetIn _) (releaseReset_assertReset_running s) (releaseReset_assertReset_request s),
      releaseReset_assertReset_response s, releaseReset_record _⟩
  · obtain ⟨u, hu, -, hresponse, hrecord, -⟩ := serve_answers_responseOf w (ready_releaseReset (assertReset_resetIn s))
    refine ⟨_, u, ?_, hu, hresponse, ?_⟩
    · exact callerSend_of_idle (releaseReset_assertReset_request s) (releaseReset_assertReset_running s) w
    · rw [hrecord, releaseReset_record, assertReset_record]

end Sys2Proof.Machine
end
